-- ==== Sys2Proof/Word.lean ====
section
/-! DEFINITION. The widths in which QR1L's software-visible quantities are held (00_scope.md R7: bit 0 is the least
significant bit, all quantities are unsigned). -/

namespace Sys2Proof

/-- A field element, a codeword, or any other 8-bit register (R100, R8). -/
abbrev Byte := BitVec 8

/-- One 32-bit word of the register window (R40), and one command word (R60). -/
abbrev Word := BitVec 32

end Sys2Proof
end

