-- ==== Sys2Proof/Machine/Bits.lean ====
section
/-! DEFINITION. Bit sequences and codewords (00_scope.md R8, 41_bitstream.md R136): the first bit of each group of eight
is the most significant bit of the codeword. -/

namespace Sys2Proof.Machine

/-- `bits8(v)`: the bits `v[7], v[6], ..., v[0]` (R8). -/
def bits8 (v : Byte) : List Bool :=
  [v.getLsbD 7, v.getLsbD 6, v.getLsbD 5, v.getLsbD 4, v.getLsbD 3, v.getLsbD 2, v.getLsbD 1, v.getLsbD 0]

/-- The value of one codeword, `b[0]*128 + b[1]*64 + ... + b[7]*1` (R8). -/
def codeword (b0 b1 b2 b3 b4 b5 b6 b7 : Bool) : Byte :=
  BitVec.ofNat 8 (b0.toNat * 128 + b1.toNat * 64 + b2.toNat * 32 + b3.toNat * 16 + b4.toNat * 8 + b5.toNat * 4 +
    b6.toNat * 2 + b7.toNat)

/-- `codewords(bits)` for a sequence whose length is a multiple of 8 (R136). -/
def codewords : List Bool → List Byte
  | b0 :: b1 :: b2 :: b3 :: b4 :: b5 :: b6 :: b7 :: rest => codeword b0 b1 b2 b3 b4 b5 b6 b7 :: codewords rest
  | _ => []

/-- A register file of `n` codewords holding the sequence `l`, the first element in register 0. The rules only use it
for sequences of exactly `n` elements, or (RSGEN, R155) for shorter ones whose remaining registers are set to 0. -/
def registers (n : Nat) (l : List Byte) : Vector Byte n := Vector.ofFn fun i => l.getD i.val 0

end Sys2Proof.Machine
end

