-- ==== Sys2Proof/Config.lean ====
section
/-! DEFINITION. What one QR1L fixes and no run changes: the sizes of R5, the widths of R6, and the one value the spec
leaves free. DESIGN CHOICE: log entry 9. The constants whose values a test could show wrong (polynomial, pads, finder corners, dark module, format
words, generator) stand in Machine/Constants.lean. -/

namespace Sys2Proof.Config

/-- `N`, the side of the grid (R5). -/
abbrev side : Nat := 21

/-- `NDATA`, the number of data codewords (R5). -/
abbrev nData : Nat := 19

/-- `NECC`, the number of error-correction codewords (R5). -/
abbrev nEcc : Nat := 7

/-- `NBITS`, the number of placed bits (R5). -/
abbrev nBits : Nat := 208

/-- `MAXLEN`, the largest number of input code units an encode accepts, and the number of `IN` registers (R5, R14). -/
abbrev maxLen : Nat := 17

/-- `CPW`, the width in bits of one input code unit (R6; QR1L's value). -/
abbrev cpw : Nat := 16

/-- `LENW`, the width in bits of `LEN` (R6; QR1L's value). -/
abbrev lenW : Nat := 8

/-- `NPOW`, the width in bits of GFPOW's operand (R6; QR1L's value). -/
abbrev nPow : Nat := 24

/-- `GENMAX`, the largest degree RSGEN accepts (R6). -/
abbrev genMax : Nat := 7

/-- The number of word addresses of the register window, 0x000 to 0x3FF (R40). -/
abbrev windowSize : Nat := 1024

/-- FREE VALUE (log entry 1). What the n-th host read of word address 0x200 (`LOG[0]`) returns: R49 lets it be any of
the 256 values, and two reads may differ. It has no body, so nothing can be proved of its value. -/
opaque logZeroDraw : Nat → Byte

end Sys2Proof.Config
end

