-- ==== Sys2Proof/Machine/Plane.lean ====
section
/-! DEFINITION. One plane of 21 × 21 one-bit cells (10_state.md R22), held as the 21 row words the host reads
(20_memory.md R46): bit `x` of row `y` is the cell (x, y). -/

namespace Sys2Proof.Machine

/-- A plane of the grid, its row words in order of `y`. -/
structure Plane where
  rows : Vector (BitVec Config.side) Config.side
  deriving DecidableEq, Repr

/-- The plane with every cell 0: all light, or no function module (R171). -/
def Plane.clear : Plane := ⟨Vector.replicate Config.side 0⟩

/-- The cell in column `x` and row `y` (R10). A coordinate outside 0..20 reads as 0; no rule forms one.
DEDUCED, safe: log entry 12. -/
def Plane.get (p : Plane) (x y : Nat) : Bool := if h : y < Config.side then p.rows[y].getLsbD x else false

/-- Row word `w` with bit `x` set to `b`. -/
def setBit (w : BitVec Config.side) (x : Nat) (b : Bool) : BitVec Config.side :=
  if b then w ||| BitVec.twoPow Config.side x else w &&& ~~~(BitVec.twoPow Config.side x)

/-- The plane with cell (x, y) set to `b`. A coordinate outside 0..20 changes nothing; no rule forms one. -/
def Plane.set (p : Plane) (x y : Nat) (b : Bool) : Plane :=
  if h : y < Config.side then ⟨p.rows.set y (setBit p.rows[y] x b)⟩ else p

/-- The plane whose cell (x, y) is `f x y`. -/
def Plane.tabulate (f : Nat → Nat → Bool) : Plane :=
  ⟨Vector.ofFn fun y => BitVec.ofFnLE fun x => f x.val y.val⟩

/-- All cells (x, y) of the grid, row by row. -/
def allCells : List (Nat × Nat) :=
  (List.range Config.side).flatMap fun y => (List.range Config.side).map fun x => (x, y)

/-- The number of cells of the plane that are 0: for `FUNC`, the non-function modules (R170). -/
def Plane.countZero (p : Plane) : Nat := allCells.countP fun c => !p.get c.1 c.2

end Sys2Proof.Machine
end

