-- ==== Sys2Proof/Machine/Constants.lean ====
section
/-! DEFINITION. The fixed constants of the hardware, which "must be reproduced exactly, not configurable" (00_scope.md
R5). Sizes stand in Config.lean. DESIGN CHOICE: log entry 9. -/

namespace Sys2Proof.Machine

/-- `POLY` = x^8+x^4+x^3+x^2+1, the reducing polynomial (R5, R100). -/
def poly : Nat := 0x11D

/-- `PAD0`, the first and every other pad codeword (R5, R131). -/
def pad0 : Byte := 0xEC

/-- `PAD1`, the pad codeword that alternates with `PAD0` (R5, R131). -/
def pad1 : Byte := 0x11

/-- `FINDER`: the top-left cells (x, y) of the three finder patterns (R5, R172). -/
def finderCorners : List (Nat × Nat) := [(0, 0), (14, 0), (0, 14)]

/-- `(DARK_X, DARK_Y)`, the dark module (R5, R175; the spec marks the value as general knowledge, K3). -/
def darkModule : Nat × Nat := (8, 13)

/-- `FMT[0..7]` as numbers, character 0 of the literal being bit 14 (R231; the spec marks the values as general
knowledge, K1). -/
def formatWords : Vector (BitVec 15) 8 := #v[0x77C4, 0x72F3, 0x7DAA, 0x789D, 0x662F, 0x6318, 0x6C41, 0x6976]

/-- `G7`, the generator polynomial of degree 7, highest degree first: a constant of the hardware, not the `GEN`
registers (R152). -/
def g7 : List Byte := [0x01, 0x7F, 0x7A, 0x9A, 0xA4, 0x0B, 0x44, 0x75]

end Sys2Proof.Machine
end

