-- ==== Sys2Proof/Syntax.lean ====
section
/-! DEFINITION. QR1L's fifteen commands, one constructor per row of the opcode map (30_encoding.md R66). -/

namespace Sys2Proof

/-- A command. The operands are the unsigned fields of the command word (R61 to R65): `a` and `b` are field elements,
`n` is GFPOW's power or RSGEN's degree. No command has a register-number field (R65). -/
inductive Instr where
  /-- NOP, format Z (R240). -/
  | nop
  /-- GFADD a, b, format AB (R110). -/
  | gfadd (a b : Byte)
  /-- GFSUB a, b, format AB (R111). -/
  | gfsub (a b : Byte)
  /-- GFMUL a, b, format AB (R112). -/
  | gfmul (a b : Byte)
  /-- GFDIV a, b, format AB: dividend `a`, divisor `b` (R113). -/
  | gfdiv (a b : Byte)
  /-- GFINV a, format A (R114). -/
  | gfinv (a : Byte)
  /-- GFPOW n, format N (R115). -/
  | gfpow (n : BitVec Config.nPow)
  /-- BSENC, format Z (R130). -/
  | bsenc
  /-- RSGEN n, format A; legal only for `n` in 0..7 (R155, R62). -/
  | rsgen (n : Byte)
  /-- RSECC, format Z (R156). -/
  | rsecc
  /-- RSCHK, format Z (R158). -/
  | rschk
  /-- MXBUILD, format Z (R170). -/
  | mxbuild
  /-- MASKSEL, format Z (R200). -/
  | masksel
  /-- FMTWR, format Z (R230). -/
  | fmtwr
  /-- GENQR, format Z (R241). -/
  | genqr
  deriving DecidableEq, Repr

end Sys2Proof
end

