-- ==== Sys2Proof/Machine/State.lean ====
section
/-! DEFINITION. The state of one QR1L and of the host's port to it (10_state.md), and the reasons a step can stop. -/

namespace Sys2Proof.Machine

/-- `STAGE`, how far the current encode call has progressed (R27). The codes 6 and 7 are never taken (R27, U9), so the
type lacks them. DEDUCED, safe: log entry 14. -/
inductive Stage where
  | idle | data | ecc | placed | masked | done
  deriving DecidableEq, Repr

/-- The six errors of R260. `ERR` = 0 is the absence of one; the codes 7 to 15 are never produced. -/
inductive ErrorKind where
  | inputTooLong | invalidCharacter | divideByZero | placementInvariantViolation | illegalCommand | stageOrder
  deriving DecidableEq, Repr

/-- What a `raise <Error>(info)` of the pseudocode carries (R9). -/
structure Raise where
  error : ErrorKind
  info : BitVec 16
  deriving DecidableEq, Repr

/-- One action of the host, one line of a host script (R71, R300). Accesses carry an address and a size in bytes as in
`MemRead(addr, 4)`: the forms R44, R47 and R300 refuse can be written down, and the step refuses them. -/
inductive HostAction where
  /-- Assert reset (R290). -/
  | reset
  /-- `MemRead(addr, size)` (R41). -/
  | read (addr size : Nat)
  /-- `MemWrite(addr, size, v)` (R42). -/
  | write (addr size : Nat) (v : Word)
  deriving DecidableEq, Repr

/-- Everything 10_state.md gives the block, and the three fields of the host's port, which are the model's own (log
entries 1, 2 and 3). -/
structure State where
  /-- `RESULT` (R13). -/
  result : Byte
  /-- `IN[0..16]` (R14). -/
  inp : Vector (BitVec Config.cpw) Config.maxLen
  /-- `LEN` (R15). -/
  len : BitVec Config.lenW
  /-- `DCW[0..18]` (R16). -/
  dcw : Vector Byte Config.nData
  /-- `ECC[0..6]` (R17). -/
  ecc : Vector Byte Config.nEcc
  /-- `GEN[0..7]` (R18). -/
  gen : Vector Byte 8
  /-- `GENDEG` (R18). -/
  genDeg : BitVec 4
  /-- `REM[0..6]` (R19). -/
  rem : Vector Byte Config.nEcc
  /-- `PEN[0..7]` (R20). -/
  pen : Vector (BitVec 16) 8
  /-- `BEST` (R21). -/
  best : BitVec 3
  /-- `COLOR`, 1 = dark (R22). -/
  color : Plane
  /-- `FUNC`, 1 = function module (R22). -/
  func : Plane
  /-- `EXP[0..254]` and `LOG[1..255]` (R23, R24). -/
  tables : GfTables
  /-- `STAGE` (R27). -/
  stage : Stage
  /-- `ERR`; `none` is the code 0 (R28). -/
  err : Option ErrorKind
  /-- `FATAL` (R29). -/
  fatal : Bool
  /-- `ERRCMD` (R30). -/
  errCmd : Word
  /-- `ERRINFO` (R31). -/
  errInfo : BitVec 16
  /-- The model's own: the host's actions that are still to be performed, the next one first (R50, R71). -/
  pending : List HostAction
  /-- The model's own: the words the host's reads have returned, the oldest first (R41). -/
  reads : List Word
  /-- The model's own: how many reads of `LOG[0]` have been made; each takes a fresh draw (R49). -/
  draws : Nat
  deriving DecidableEq, Repr

/-- The reasons the machine can stop with a fault. Every error of R260 is an entry the spec describes (R266) and leads to
a next state, so no step of QR1L answers a fault. -/
inductive Fault where
  /-- A rule read `LOG[0]`, which R24 makes a fault of the model. RAISED BY nobody: `GfTables.logOf` asks for a proof
  that its argument is not 0. Safe: it only stops where the spec gives no value. -/
  | logZeroRead
  deriving DecidableEq, Repr

/-- The reasons a step has no meaning. Both refusals below are of host accesses, never of a command. -/
inductive Refusal where
  /-- An instruction without a meaning yet. RAISED BY an arm of `exec` that has none; this model has no such arm. Safe. -/
  | notModelled (mnemonic : String)
  /-- A host access that is not one whole 32-bit word. RAISED BY `hostAct`. R44: "a model refuses them (they have no
  meaning)". Safe. -/
  | notOneWord
  /-- A host access to an address outside 0x000..0x3FF. RAISED BY `hostAct`. R47: it "does not reach QR1L"; R300 lists it
  as refused. Safe. -/
  | outsideWindow
  deriving DecidableEq, Repr

/-- The state right after reset (R36, R291), with no host action pending and none performed (log entries 1, 2, 3). -/
def State.reset : State where
  result := 0
  inp := Vector.replicate _ 0
  len := 0
  dcw := Vector.replicate _ 0
  ecc := Vector.replicate _ 0
  gen := Vector.replicate _ 0
  genDeg := 0
  rem := Vector.replicate _ 0
  pen := Vector.replicate _ 0
  best := 0
  color := .clear
  func := .clear
  tables := romTables
  stage := .idle
  err := none
  fatal := false
  errCmd := 0
  errInfo := 0
  pending := []
  reads := []
  draws := 0

end Sys2Proof.Machine
end

