-- ==== Sys2Proof/Machine/Operands.lean ====
section
/-! DEFINITION. What commands read besides the fields of their word. Every command names its source registers
implicitly (30_encoding.md R65); the sequences below are the forms in which the rules read them. The fields of the
command word itself (R61 to R64) are taken apart in Decode.lean. -/

namespace Sys2Proof.Machine

/-- `IN[0], ..., IN[LEN-1]`, for `LEN` at most 17 (R130). Code units at indexes `LEN` and above are not examined
(R133). -/
def State.inputUnits (s : State) : List (BitVec Config.cpw) := s.inp.toList.take s.len.toNat

/-- The lowest index of a code unit above 255 (R133). -/
def firstInvalid (units : List (BitVec Config.cpw)) : Option Nat := units.findIdx? fun u => 255 < u.toNat

/-- `IN[0][7:0], ..., IN[LEN-1][7:0]` (R130). -/
def inputBytes (units : List (BitVec Config.cpw)) : List Byte := units.map fun u => u.setWidth 8

/-- `[DCW[0], ..., DCW[18]]` (R156). -/
def State.dataCodewords (s : State) : List Byte := s.dcw.toList

/-- `[DCW[0], ..., DCW[18], ECC[0], ..., ECC[6]]`, 26 codewords (R158). -/
def State.allCodewords (s : State) : List Byte := s.dcw.toList ++ s.ecc.toList

/-- `placed_sequence()`, the 208 bits of the 26 codewords in order (R178, R45 item 2). -/
def State.placedSequence (s : State) : List Bool := s.allCodewords.flatMap bits8

end Sys2Proof.Machine
end

