-- ==== Sys2Proof/WellFormed.lean ====
section
/-! DEFINITION. Which terms of `Instr` stand for a command of QR1L. -/

namespace Sys2Proof

/-- A command is well formed when the opcode map has a word for it. The only operand with values the map leaves out is
RSGEN's degree, legal for 0..7 (R62, R67); every 8-bit operand of formats A and AB and every 24-bit operand of format N
is legal (R63, R64). -/
def Instr.wellFormed : Instr → Bool
  | .rsgen n => decide (n.toNat ≤ Config.genMax)
  | .nop | .gfadd _ _ | .gfsub _ _ | .gfmul _ _ | .gfdiv _ _ | .gfinv _ | .gfpow _ | .bsenc | .rsecc | .rschk
  | .mxbuild | .masksel | .fmtwr | .genqr => true

end Sys2Proof
end

