-- ==== Sys2Proof/Decode.lean ====
section
/-! DEFINITION. From command words to commands and back (30_encoding.md R60 to R67). Every one of the 2^32 words either
selects a row of the opcode map or is illegal, for one of three reasons with a name each. -/

namespace Sys2Proof

/-- Why a command word selects no row of the opcode map (R67). Every reason raises the same error, IllegalCommand. -/
inductive IllegalWord where
  /-- The opcode `w[31:24]` is not one of the fifteen. -/
  | unknownOpcode
  /-- A "must be 0" field of the word's format is not 0. -/
  | reservedBitsSet
  /-- RSGEN with an operand above 7. -/
  | degreeTooLarge
  deriving DecidableEq, Repr

/-- Bits 31..24, the opcode (R60). -/
def opField (w : Word) : Byte := w.extractLsb' 24 8

/-- Bits 15..8, operand `a` of format AB (R63). -/
def aFieldOfAB (w : Word) : Byte := w.extractLsb' 8 8

/-- Bits 7..0: operand `b` of format AB (R63), operand `a` of format A (R62). -/
def lowField (w : Word) : Byte := w.extractLsb' 0 8

/-- Bits 23..0: operand `n` of format N (R64), and the field that must be 0 in format Z (R61). -/
def wideField (w : Word) : BitVec 24 := w.extractLsb' 0 24

/-- Bits 23..16, which must be 0 in format AB (R63). -/
def zeroFieldOfAB (w : Word) : Byte := w.extractLsb' 16 8

/-- Bits 23..8, which must be 0 in format A (R62). -/
def zeroFieldOfA (w : Word) : BitVec 16 := w.extractLsb' 8 16

/-- Format Z: no operand, bits 23..0 must be 0 (R61). -/
def decodeZ (w : Word) (i : Instr) : Except IllegalWord Instr :=
  if wideField w = 0 then .ok i else .error .reservedBitsSet

/-- Format A: one 8-bit operand, bits 23..8 must be 0 (R62). -/
def decodeA (w : Word) (i : Byte → Instr) : Except IllegalWord Instr :=
  if zeroFieldOfA w = 0 then .ok (i (lowField w)) else .error .reservedBitsSet

/-- Format A with RSGEN's legal range 0..7 (R62, R67). -/
def decodeDegree (w : Word) (i : Byte → Instr) : Except IllegalWord Instr :=
  if zeroFieldOfA w = 0 then
    if (lowField w).toNat ≤ Config.genMax then .ok (i (lowField w)) else .error .degreeTooLarge
  else .error .reservedBitsSet

/-- Format AB: two 8-bit operands, bits 23..16 must be 0 (R63). -/
def decodeAB (w : Word) (i : Byte → Byte → Instr) : Except IllegalWord Instr :=
  if zeroFieldOfAB w = 0 then .ok (i (aFieldOfAB w) (lowField w)) else .error .reservedBitsSet

/-- Format N: one 24-bit operand, every value legal (R64). -/
def decodeN (w : Word) (i : BitVec 24 → Instr) : Except IllegalWord Instr := .ok (i (wideField w))

/-- The opcode map (R66), with every other opcode illegal (R67). -/
def decode (w : Word) : Except IllegalWord Instr :=
  match (opField w).toNat with
  | 0x00 => decodeZ w .nop
  | 0x01 => decodeAB w .gfadd
  | 0x02 => decodeAB w .gfsub
  | 0x03 => decodeAB w .gfmul
  | 0x04 => decodeAB w .gfdiv
  | 0x05 => decodeA w .gfinv
  | 0x06 => decodeN w .gfpow
  | 0x10 => decodeZ w .bsenc
  | 0x11 => decodeDegree w .rsgen
  | 0x12 => decodeZ w .rsecc
  | 0x13 => decodeZ w .rschk
  | 0x14 => decodeZ w .mxbuild
  | 0x15 => decodeZ w .masksel
  | 0x16 => decodeZ w .fmtwr
  | 0x1F => decodeZ w .genqr
  | _ => .error .unknownOpcode

/-- A word of format Z: opcode, then 24 zero bits (R61). -/
def encodeZ (op : Byte) : Word := op ++ 0#24

/-- A word of format A (R62). -/
def encodeA (op a : Byte) : Word := op ++ 0#16 ++ a

/-- A word of format AB (R63). -/
def encodeAB (op a b : Byte) : Word := op ++ 0#8 ++ a ++ b

/-- A word of format N (R64). -/
def encodeN (op : Byte) (n : BitVec 24) : Word := op ++ n

/-- The command word of a command (R70). -/
def encode : Instr → Word
  | .nop => encodeZ 0x00
  | .gfadd a b => encodeAB 0x01 a b
  | .gfsub a b => encodeAB 0x02 a b
  | .gfmul a b => encodeAB 0x03 a b
  | .gfdiv a b => encodeAB 0x04 a b
  | .gfinv a => encodeA 0x05 a
  | .gfpow n => encodeN 0x06 n
  | .bsenc => encodeZ 0x10
  | .rsgen n => encodeA 0x11 n
  | .rsecc => encodeZ 0x12
  | .rschk => encodeZ 0x13
  | .mxbuild => encodeZ 0x14
  | .masksel => encodeZ 0x15
  | .fmtwr => encodeZ 0x16
  | .genqr => encodeZ 0x1F

/-- The match and mask columns of a command's row of the opcode map (R66). The decoder above does not read them: that
the two agree is a claim about both. -/
def Instr.row : Instr → Word × Word
  | .nop => (0x00000000, 0xFFFFFFFF)
  | .gfadd _ _ => (0x01000000, 0xFFFF0000)
  | .gfsub _ _ => (0x02000000, 0xFFFF0000)
  | .gfmul _ _ => (0x03000000, 0xFFFF0000)
  | .gfdiv _ _ => (0x04000000, 0xFFFF0000)
  | .gfinv _ => (0x05000000, 0xFFFFFF00)
  | .gfpow _ => (0x06000000, 0xFF000000)
  | .bsenc => (0x10000000, 0xFFFFFFFF)
  | .rsgen _ => (0x11000000, 0xFFFFFFF8)
  | .rsecc => (0x12000000, 0xFFFFFFFF)
  | .rschk => (0x13000000, 0xFFFFFFFF)
  | .mxbuild => (0x14000000, 0xFFFFFFFF)
  | .masksel => (0x15000000, 0xFFFFFFFF)
  | .fmtwr => (0x16000000, 0xFFFFFFFF)
  | .genqr => (0x1F000000, 0xFFFFFFFF)

/-- The fifteen rows, in the order of the opcode map (R66). -/
def opcodeRows : List (Word × Word) :=
  [.nop, .gfadd 0 0, .gfsub 0 0, .gfmul 0 0, .gfdiv 0 0, .gfinv 0, .gfpow 0, .bsenc, .rsgen 0, .rsecc, .rschk, .mxbuild,
    .masksel, .fmtwr, .genqr].map Instr.row

/-- `w` selects the row: `(w & mask) = match` (R66). -/
def selectsRow (w : Word) (row : Word × Word) : Bool := w &&& row.2 == row.1

/-- The host's reading of an instruction whose bits are `w`, `nbits` of them given and the rest 0: one 32-bit word,
numbered as the word's own bits (R60). -/
def decodeTableWord (nbits w : Nat) : Option Instr :=
  match decode (BitVec.ofNat 32 (w % 2 ^ nbits)) with
  | .ok i => some i
  | .error _ => none

end Sys2Proof
end

