-- ==== Sys2Proof/Machine/Flags.lean ====
section
/-! DEFINITION. The status bits: the codes of `STAGE` and `ERR`, the `STATUS` view, which errors abort and which are
fatal, and the stages each command may run in. QR1L has no carry, zero, sign or overflow flag (10_state.md R32). -/

namespace Sys2Proof.Machine

/-- The value of `STAGE` (R27). -/
def Stage.code : Stage → BitVec 3
  | .idle => 0 | .data => 1 | .ecc => 2 | .placed => 3 | .masked => 4 | .done => 5

/-- The value of `ERR` for an error (R260). -/
def ErrorKind.code : ErrorKind → BitVec 4
  | .inputTooLong => 1 | .invalidCharacter => 2 | .divideByZero => 3 | .placementInvariantViolation => 4
  | .illegalCommand => 5 | .stageOrder => 6

/-- The value of `ERR` (R28): 0 when the most recent command completed without error. -/
def errCode : Option ErrorKind → BitVec 4
  | none => 0
  | some e => e.code

/-- The errors with codes 1 to 4, on which the encode is aborted (R266). -/
def ErrorKind.aborts : ErrorKind → Bool
  | .inputTooLong | .invalidCharacter | .divideByZero | .placementInvariantViolation => true
  | .illegalCommand | .stageOrder => false

/-- The errors with codes 3 and 4, which set `FATAL` (R266). -/
def ErrorKind.isFatal : ErrorKind → Bool
  | .divideByZero | .placementInvariantViolation => true
  | .inputTooLong | .invalidCharacter | .illegalCommand | .stageOrder => false

/-- `OUTV`: 1 exactly when `STAGE` = 5 (R26). -/
def State.outputValid (s : State) : Bool := s.stage = .done

/-- `STATUS`, a view of other state (R26): from bit 31 down, 20 reserved zero bits, `ERR`, `TBLRDY` (hardwired 1), two
reserved zero bits, `FATAL`, `OUTV`, `STAGE`. -/
def State.statusWord (s : State) : Word :=
  0#20 ++ errCode s.err ++ 1#1 ++ 0#2 ++ BitVec.ofBool s.fatal ++ BitVec.ofBool s.outputValid ++ s.stage.code

/-- `need(c)`: whether the command may run in the stage (R243). -/
def need : Instr → Stage → Bool
  | .nop, _ | .gfadd _ _, _ | .gfsub _ _, _ | .gfmul _ _, _ | .gfdiv _ _, _ | .gfinv _, _ | .gfpow _, _
  | .rsgen _, _ | .bsenc, _ | .genqr, _ => true
  | .rsecc, st => st = .data
  | .rschk, st => st = .ecc || st = .placed || st = .masked || st = .done
  | .mxbuild, st => st = .ecc
  | .masksel, st => st = .placed
  | .fmtwr, st => st = .masked

end Sys2Proof.Machine
end

