-- ==== Sys2Proof/Machine/Ops.lean ====
section
/-! DEFINITION. The operations every command shares: clearing the per-encode state, taking an error, and running a
command word that has been decoded (10_state.md R33, 60_exceptions.md R266 to R268, 30_encoding.md R73). -/

namespace Sys2Proof.Machine

/-- `clear_encode_state()`: every per-encode register takes its reset value; nothing else changes (R33). -/
def clearEncodeState (s : State) : State :=
  { s with
    dcw := Vector.replicate _ 0
    ecc := Vector.replicate _ 0
    rem := Vector.replicate _ 0
    pen := Vector.replicate _ 0
    best := 0
    color := .clear
    func := .clear }

/-- `abort_encode()` (R267). -/
def abortEncode (s : State) : State := { clearEncodeState s with stage := .idle }

/-- The first three lines of error entry: `ERR`, `ERRCMD` and `ERRINFO` record the error (R266). -/
def recordError (w : Word) (r : Raise) (s : State) : State :=
  { s with err := some r.error, errCmd := w, errInfo := r.info }

/-- Error entry, `raise E(info)` inside the execution of command word `w` (R266): record the error, abort the encode on
the codes 1 to 4, set `FATAL` on the codes 3 and 4. There is no handler, no saved pc and no mode (R266), and no return:
after a non-fatal error the block is at once ready for the next command (R271). -/
def raiseError (w : Word) (r : Raise) (s : State) : State :=
  let recorded := recordError w r s
  let aborted := if r.error.aborts then abortEncode recorded else recorded
  if r.error.isFatal then { aborted with fatal := true } else aborted

/-- Step 5 of R73: a command that raised nothing ends with `ERR` <- 0, keeping `ERRCMD` and `ERRINFO` (R244). -/
def completed (s : State) : State := { s with err := none }

/-- Running a decoded command (R73 steps 3 to 5, with the priority of R269). While `FATAL` = 1 no command executes
(R268). Outside its stages the command raises StageOrder and changes nothing else. Otherwise its pseudocode `body` runs;
an error it raises is entered from the state before the command, since the only change a rule makes before a raise is
the `clear_encode_state()` that `abort_encode()` repeats (R266). DEDUCED, safe: log entries 6 and 7. -/
def runCommand (i : Instr) (body : State → Except Raise State) (s : State) : Host.Outcome State Fault Refusal :=
  if s.fatal then .next s
  else if need i s.stage then
    match body s with
    | .ok t => .next (completed t)
    | .error r => .next (raiseError (encode i) r s)
  else .next (raiseError (encode i) ⟨.stageOrder, s.stage.code.setWidth 16⟩ s)

end Sys2Proof.Machine
end

