-- ==== Sys2Proof/Machine/Bitstream.lean ====
section
/-! DEFINITION. The BitStreamEncoder unit (41_bitstream.md): the 152-bit data segment and BSENC. -/

namespace Sys2Proof.Machine

/-- The mode indicator `0100`, byte mode (R131). -/
def modeIndicator : List Bool := [false, true, false, false]

/-- The terminator `0000` (R131). -/
def terminator : List Bool := List.replicate 4 false

/-- Pad codeword number `t`: 0xEC for even `t`, 0x11 for odd `t` (R131). -/
def padCodeword (t : Nat) : Byte := if t % 2 = 0 then pad0 else pad1

/-- Mode, character count, data bytes and terminator (R131). -/
def segmentBeforePadding (data : List Byte) : List Bool :=
  modeIndicator ++ bits8 (BitVec.ofNat 8 data.length) ++ data.flatMap bits8 ++ terminator

/-- The zero bits up to the next multiple of 8 (R131); none are ever needed in QR1L (R134 item 1). -/
def zeroPadding (bits : List Bool) : List Bool := List.replicate ((8 - bits.length % 8) % 8) false

/-- The pad codewords that the loop `while length(bits) < 152` appends: one for every 8 bits that are missing (R131).
DEDUCED, safe: log entry 13. -/
def padCodewords (length : Nat) : List Bool :=
  (List.range ((152 - length + 7) / 8)).flatMap fun t => bits8 (padCodeword t)

/-- `bs_encode(data)` (R131). -/
def bsEncode (data : List Byte) : List Bool :=
  let bits := segmentBeforePadding data
  let aligned := bits ++ zeroPadding bits
  aligned ++ padCodewords aligned.length

/-- The pseudocode of BSENC (R130): a fresh encode call, the length check, the character check in increasing index
order, then `DCW` and `STAGE`. -/
def bsencBody (s : State) : Except Raise State :=
  if Config.maxLen < s.len.toNat then .error ⟨.inputTooLong, s.len.setWidth 16⟩
  else
    match firstInvalid s.inputUnits with
    | some i => .error ⟨.invalidCharacter, BitVec.ofNat 16 i⟩
    | none =>
      .ok { clearEncodeState s with
        dcw := registers Config.nData (codewords (bsEncode (inputBytes s.inputUnits)))
        stage := .data }

/-- BSENC (R130). -/
def execBsenc (s : State) : Host.Outcome State Fault Refusal := runCommand .bsenc bsencBody s

end Sys2Proof.Machine
end

