-- ==== Sys2Proof/Machine/FormatInfo.lean ====
section
/-! DEFINITION. The FormatInfoWriter unit (45_format_info.md): the two placements of the 15-bit literal, and FMTWR. -/

namespace Sys2Proof.Machine

/-- `FPRI[t]`, the cells of the primary copy (R232). -/
def primaryCells : List (Nat × Nat) :=
  [(0, 8), (1, 8), (2, 8), (3, 8), (4, 8), (5, 8), (7, 8), (8, 8), (8, 7), (8, 5), (8, 4), (8, 3), (8, 2), (8, 1), (8, 0)]

/-- `FSEC[t]`, the cells of the secondary copy (R233; the direction of the row strip is the spec's own, K5). -/
def secondaryCells : List (Nat × Nat) :=
  [(8, 20), (8, 19), (8, 18), (8, 17), (8, 16), (8, 15), (8, 14),
    (13, 8), (14, 8), (15, 8), (16, 8), (17, 8), (18, 8), (19, 8), (20, 8)]

/-- The characters of a format literal, left to right: character `t` is bit `14 - t` of its number (R231). -/
def formatCharacters (literal : BitVec 15) : List Bool := (List.range 15).map fun t => literal.getLsbD (14 - t)

/-- Assign the bits to the cells, one after the other: `1` is dark (R234). -/
def writeCells : List (Nat × Nat) → List Bool → Plane → Plane
  | c :: cells, b :: bits, color => writeCells cells bits (color.set c.1 c.2 b)
  | _, _, color => color

/-- `fmt_write(k, C)`: the primary copy, then the secondary copy with the index restarting at 0 (R234). -/
def fmtWrite (literal : BitVec 15) (color : Plane) : Plane :=
  writeCells secondaryCells (formatCharacters literal) (writeCells primaryCells (formatCharacters literal) color)

/-- `FMT[BEST]` (R230). -/
def State.formatLiteral (s : State) : BitVec 15 := formatWords[s.best.toNat]'(by have := s.best.isLt; omega)

/-- The pseudocode of FMTWR (R230). -/
def fmtwrBody (s : State) : Except Raise State :=
  .ok { s with color := fmtWrite s.formatLiteral s.color, stage := .done }

/-- FMTWR (R230). -/
def execFmtwr (s : State) : Host.Outcome State Fault Refusal := runCommand .fmtwr fmtwrBody s

end Sys2Proof.Machine
end

