-- ==== Sys2Proof/Machine/Mask.lean ====
section
/-! DEFINITION. The MaskSelector unit (44_mask.md): the eight predicates, the penalty, the selection and MASKSEL. -/

namespace Sys2Proof.Machine

/-- The eight predicates over module coordinates (x, y), a fixed-size table indexed by mask id (R201). -/
def maskTable : Vector (Nat → Nat → Bool) 8 :=
  #v[fun x y => (x + y) % 2 = 0,
     fun _ y => y % 2 = 0,
     fun x _ => x % 3 = 0,
     fun x y => (x + y) % 3 = 0,
     fun x y => (y / 2 + x / 3) % 2 = 0,
     fun x y => (x * y) % 2 + (x * y) % 3 = 0,
     fun x y => ((x * y) % 2 + (x * y) % 3) % 2 = 0,
     fun x y => ((x + y) % 2 + (x * y) % 3) % 2 = 0]

/-- `mask_pred(k, x, y)` (R201). -/
def maskPred (k : Fin 8) (x y : Nat) : Bool := maskTable[k] x y

/-- `mask_apply(k, C, F)`: flip every non-function module whose predicate is true (R202). -/
def maskApply (k : Fin 8) (color func : Plane) : Plane :=
  .tabulate fun x y => if !func.get x y && maskPred k x y then !color.get x y else color.get x y

/-- What a run of the given length adds to the penalty: length minus 2 from length 5 on (R204). -/
def runPenalty (run : Nat) : Nat := if 5 ≤ run then run - 2 else 0

/-- The scan of R204 after the colour `prev`, in a run of length `run`, with penalty `p` so far. -/
def scanLine (prev : Bool) (run p : Nat) : List Bool → Nat
  | [] => p + runPenalty run
  | c :: rest => if c = prev then scanLine c (run + 1) p rest else scanLine c 1 (p + runPenalty run) rest

/-- `line_penalty(L)` (R204). -/
def linePenalty : List Bool → Nat
  | [] => 0
  | c :: rest => scanLine c 1 0 rest

/-- Row `y` of the plane, left to right. -/
def Plane.rowLine (p : Plane) (y : Nat) : List Bool := (List.range Config.side).map fun x => p.get x y

/-- Column `x` of the plane, top to bottom. -/
def Plane.columnLine (p : Plane) (x : Nat) : List Bool := (List.range Config.side).map fun y => p.get x y

/-- `pen_a(C)`, Rule A: every row and every column, function modules included (R205). -/
def penA (c : Plane) : Nat :=
  ((List.range Config.side).map fun y => linePenalty (c.rowLine y)).sum +
    ((List.range Config.side).map fun x => linePenalty (c.columnLine x)).sum

/-- The four cells of the 2 × 2 window at (x, y) have one colour (R206). -/
def sameColourBlock (c : Plane) (x y : Nat) : Bool :=
  c.get x y == c.get (x + 1) y && c.get x y == c.get x (y + 1) && c.get x y == c.get (x + 1) (y + 1)

/-- The top-left cells of the 400 windows (R206). -/
def windows : List (Nat × Nat) := (List.range 20).flatMap fun y => (List.range 20).map fun x => (x, y)

/-- `pen_b(C)`, Rule B: 3 for every 2 × 2 window of one colour (R206). -/
def penB (c : Plane) : Nat := 3 * windows.countP fun w => sameColourBlock c w.1 w.2

/-- `penalty(C)`: Rules A and B, and nothing else (R207). -/
def penalty (c : Plane) : Nat := penA c + penB c

/-- The penalties of the eight candidates, each on a copy of the grid (R208). -/
def candidatePenalties (color func : Plane) : Vector Nat 8 := Vector.ofFn fun k => penalty (maskApply k color func)

/-- The winner: ids 0 to 7 in order, the best so far replaced only by a strictly lower penalty (R208). -/
def bestMask (pen : Vector Nat 8) : Fin 8 :=
  [1, 2, 3, 4, 5, 6, 7].foldl (fun (best k : Fin 8) => if pen[k] < pen[best] then k else best) 0

/-- The pseudocode of MASKSEL (R200). -/
def maskselBody (s : State) : Except Raise State :=
  let pen := candidatePenalties s.color s.func
  let best := bestMask pen
  .ok { s with
    pen := pen.map fun p => BitVec.ofNat 16 p
    best := BitVec.ofNat 3 best.val
    color := maskApply best s.color s.func
    stage := .masked }

/-- MASKSEL (R200). -/
def execMasksel (s : State) : Host.Outcome State Fault Refusal := runCommand .masksel maskselBody s

end Sys2Proof.Machine
end

