-- ==== Sys2Proof/Machine/Matrix.lean ====
section
/-! DEFINITION. The MatrixBuilder unit (43_matrix.md): function patterns, zigzag placement, and MXBUILD. A cell is a pair
(x, y) of column and row (R10). -/

namespace Sys2Proof.Machine

/-- The two planes together, as the steps of MXBUILD change them. -/
structure Grid where
  color : Plane
  func : Plane
  deriving DecidableEq, Repr

/-- `grid_init()` (R171). -/
def gridInit : Grid := ⟨.clear, .clear⟩

/-- Colour the cells as given and mark them as function modules, in the order of the list (steps 1 to 4). -/
def Grid.mark (g : Grid) : List ((Nat × Nat) × Bool) → Grid
  | [] => g
  | (c, dark) :: rest => Grid.mark ⟨g.color.set c.1 c.2 dark, g.func.set c.1 c.2 true⟩ rest

/-- Mark the cells as function modules without assigning a colour (step 5). -/
def Grid.reserve (g : Grid) : List (Nat × Nat) → Grid
  | [] => g
  | c :: rest => Grid.reserve ⟨g.color, g.func.set c.1 c.2 true⟩ rest

/-- `|d - 3|`. -/
def fromCentre (d : Nat) : Nat := (d - 3) + (3 - d)

/-- The 49 cells of the finder pattern at a corner: ring 2 light, rings 0, 1 and 3 dark (R172). -/
def finderPattern (corner : Nat × Nat) : List ((Nat × Nat) × Bool) :=
  (List.range 7).flatMap fun dy => (List.range 7).map fun dx =>
    ((corner.1 + dx, corner.2 + dy), decide (max (fromCentre dx) (fromCentre dy) ≠ 2))

/-- Step 1, finder patterns (R172). -/
def finderPatterns : List ((Nat × Nat) × Bool) := finderCorners.flatMap finderPattern

/-- The cells of row `y` with `x` in `lo..hi`. -/
def rowRun (y lo hi : Nat) : List (Nat × Nat) := (List.range (hi + 1 - lo)).map fun k => (lo + k, y)

/-- The cells of column `x` with `y` in `lo..hi`. -/
def columnRun (x lo hi : Nat) : List (Nat × Nat) := (List.range (hi + 1 - lo)).map fun k => (x, lo + k)

/-- The 45 cells of the separators (R173). -/
def separatorCells : List (Nat × Nat) :=
  rowRun 7 0 7 ++ columnRun 7 0 6 ++ rowRun 7 13 20 ++ columnRun 13 0 6 ++ rowRun 13 0 7 ++ columnRun 7 14 20

/-- Step 2, separators: light function modules (R173). -/
def separators : List ((Nat × Nat) × Bool) := separatorCells.map fun c => (c, false)

/-- Step 3, timing patterns: dark where the coordinate along the pattern is even (R174). -/
def timingPatterns : List ((Nat × Nat) × Bool) :=
  [8, 9, 10, 11, 12].flatMap fun k => [((k, 6), decide (k % 2 = 0)), ((6, k), decide (k % 2 = 0))]

/-- Step 5's cells: the strips that will hold the format bits (R176). -/
def formatStrips : List (Nat × Nat) :=
  rowRun 8 0 5 ++ rowRun 8 7 8 ++ columnRun 8 7 7 ++ columnRun 8 0 5 ++ columnRun 8 14 20 ++ rowRun 8 13 20

/-- The grid after steps 1 to 5, for a dark module at `dark` (R170 to R176). -/
def functionPatterns (dark : Nat × Nat) : Grid :=
  ((gridInit.mark finderPatterns).mark separators).mark timingPatterns |>.mark [(dark, true)] |>.reserve formatStrips

/-- The right columns of the ten column pairs, right to left; column 6 is in no pair (R179). -/
def rightColumns : List Nat := [20, 18, 16, 14, 12, 10, 8, 5, 3, 1]

/-- The rows in the scan direction: 20 up to 0, or 0 down to 20 (R179). -/
def scanRows (up : Bool) : List Nat := if up then (List.range Config.side).reverse else List.range Config.side

/-- The cells of the scan: for each column pair, each row in the scan direction, the right column then the left; the
direction alternates, upward first (R179). -/
def scanFrom (up : Bool) : List Nat → List (Nat × Nat)
  | [] => []
  | right :: rest => ((scanRows up).flatMap fun y => [(right, y), (right - 1, y)]) ++ scanFrom (!up) rest

/-- The whole scan of the grid (R179). -/
def scanOrder : List (Nat × Nat) := scanFrom true rightColumns

/-- `data_placement(s)`: the cells of the scan that are not function modules take the bits in order, 1 = dark (R179,
R182). -/
def placeBits (func : Plane) : List (Nat × Nat) → List Bool → Plane → Plane
  | c :: cells, b :: bits, color =>
    if func.get c.1 c.2 then placeBits func cells (b :: bits) color
    else placeBits func cells bits (color.set c.1 c.2 b)
  | _, _, color => color

/-- The pseudocode of MXBUILD for a dark module at `dark` (R170). The module count is tested before any bit is placed
(R181). -/
def mxbuildWith (dark : Nat × Nat) (s : State) : Except Raise State :=
  let g := functionPatterns dark
  let count := g.func.countZero
  if count ≠ Config.nBits then .error ⟨.placementInvariantViolation, BitVec.ofNat 16 count⟩
  else .ok { s with color := placeBits g.func scanOrder s.placedSequence g.color, func := g.func, stage := .placed }

/-- The pseudocode of MXBUILD with QR1L's dark module (R170, R175). -/
def mxbuildBody (s : State) : Except Raise State := mxbuildWith darkModule s

/-- MXBUILD (R170). -/
def execMxbuild (s : State) : Host.Outcome State Fault Refusal := runCommand .mxbuild mxbuildBody s

end Sys2Proof.Machine
end

