-- ==== Sys2Proof/Machine/GaloisField.lean ====
section
/-! DEFINITION. The GaloisField unit (40_galois_field.md): the pure functions over the tables (R103 to R108) and the six
commands (R110 to R115). -/

namespace Sys2Proof.Machine

/-- `gf_add(a, b) = a ^ b` (R104). -/
def gfAdd (a b : Byte) : Byte := a ^^^ b

/-- `gf_sub(a, b) = a ^ b` (R104). -/
def gfSub (a b : Byte) : Byte := a ^^^ b

/-- `gf_mul(a, b)` (R105). -/
def gfMul (t : GfTables) (a b : Byte) : Byte :=
  if h : a = 0#8 ∨ b = 0#8 then 0#8
  else
    t.gfExp (((t.logOf a fun e => h (.inl e)).toNat + (t.logOf b fun e => h (.inr e)).toNat) % 255)

/-- `gf_div(a, b)`: the divisor is tested first, also when `a` = 0 (R106). The index `LOG[a] - LOG[b] + 255` is formed as
`LOG[a] + 255 - LOG[b]`, which never goes below 0 (R109). DEDUCED, safe: log entry 13. -/
def gfDiv (t : GfTables) (a b : Byte) : Except Raise Byte :=
  if hb : b = 0#8 then .error ⟨.divideByZero, 0⟩
  else if ha : a = 0#8 then .ok 0#8
  else .ok (t.gfExp (((t.logOf a ha).toNat + 255 - (t.logOf b hb).toNat) % 255))

/-- `gf_inv(a)`; the index 255 of `a` = 1 reads `EXP[0]` (R107, R103). -/
def gfInv (t : GfTables) (a : Byte) : Except Raise Byte :=
  if h : a = 0#8 then .error ⟨.divideByZero, 0⟩ else .ok (t.gfExp (255 - (t.logOf a h).toNat))

/-- `gf_pow(n)`, the generator raised to the power `n` (R108). -/
def gfPow (t : GfTables) (n : Nat) : Byte := t.gfExp (n % 255)

/-- `RESULT <- v`, or the error that the field operation raised, which leaves `RESULT` as it was (R13). -/
def writeResult (v : Except Raise Byte) (s : State) : Except Raise State :=
  match v with
  | .ok r => .ok { s with result := r }
  | .error e => .error e

/-- GFADD a, b (R110). -/
def execGfadd (a b : Byte) (s : State) : Host.Outcome State Fault Refusal :=
  runCommand (.gfadd a b) (writeResult (.ok (gfAdd a b))) s

/-- GFSUB a, b (R111). -/
def execGfsub (a b : Byte) (s : State) : Host.Outcome State Fault Refusal :=
  runCommand (.gfsub a b) (writeResult (.ok (gfSub a b))) s

/-- GFMUL a, b (R112). -/
def execGfmul (a b : Byte) (s : State) : Host.Outcome State Fault Refusal :=
  runCommand (.gfmul a b) (writeResult (.ok (gfMul s.tables a b))) s

/-- GFDIV a, b (R113). -/
def execGfdiv (a b : Byte) (s : State) : Host.Outcome State Fault Refusal :=
  runCommand (.gfdiv a b) (writeResult (gfDiv s.tables a b)) s

/-- GFINV a (R114). -/
def execGfinv (a : Byte) (s : State) : Host.Outcome State Fault Refusal :=
  runCommand (.gfinv a) (writeResult (gfInv s.tables a)) s

/-- GFPOW n (R115). -/
def execGfpow (n : BitVec Config.nPow) (s : State) : Host.Outcome State Fault Refusal :=
  runCommand (.gfpow n) (writeResult (.ok (gfPow s.tables n.toNat))) s

end Sys2Proof.Machine
end

