-- ==== Sys2Proof/Machine/ReedSolomon.lean ====
section
/-! DEFINITION. The ReedSolomonEncoder unit (42_reed_solomon.md). Polynomials are sequences of field elements, highest
degree first (R150, 90_conflicts.md C1). -/

namespace Sys2Proof.Machine

/-- `p` times `(x + a)`: `p(x)*x` is `p ++ [0]`, and `a*p(x)` is `p` scaled and moved one place toward the constant term
(R151). -/
def timesLinear (t : GfTables) (p : List Byte) (a : Byte) : List Byte :=
  List.zipWith gfAdd (p ++ [0]) (0 :: p.map fun c => gfMul t c a)

/-- `rs_gen(n)`, the product of `(x + α^i)` for `i` in 0..n-1 (R151). -/
def rsGen (t : GfTables) : Nat → List Byte
  | 0 => [1]
  | n + 1 => timesLinear t (rsGen t n) (gfPow t n)

/-- `m[j] <- m[j] ^ v[j]` for every `j` that both sequences have: the inner loop of R153, on the part of the message
that begins at `m[i]`. -/
def xorInto : List Byte → List Byte → List Byte
  | m :: ms, v :: vs => gfAdd m v :: xorInto ms vs
  | ms, [] => ms
  | [], _ => []

/-- One step of R153 on the part of the message that begins at `m[i]`: the factor `c` is `m[i]`, read once before the
inner loop (90_conflicts.md C5). -/
def divideStep (t : GfTables) (g : List Byte) : List Byte → List Byte
  | [] => []
  | c :: rest => if c = 0#8 then c :: rest else xorInto (c :: rest) (g.map fun gj => gfMul t gj c)

/-- `rs_divide(m, g, steps)` (R153). Step `i` changes no entry before `m[i]`, so the loop goes on with the part after
`m[i]`. DEDUCED, safe: log entry 13. -/
def rsDivide (t : GfTables) (g : List Byte) : Nat → List Byte → List Byte
  | 0, m => m
  | steps + 1, m =>
    match divideStep t g m with
    | [] => []
    | h :: rest => h :: rsDivide t g steps rest

/-- `rs_ecc(d)`: the last 7 entries of the division of `d` followed by 7 zeros (R154). -/
def rsEcc (t : GfTables) (d : List Byte) : List Byte :=
  (rsDivide t g7 Config.nData (d ++ List.replicate Config.nEcc 0)).drop Config.nData

/-- The remainder of the re-division of 26 codewords (R157, R158). -/
def rsRemainder (t : GfTables) (m : List Byte) : List Byte := (rsDivide t g7 Config.nData m).drop Config.nData

/-- The pseudocode of RSGEN (R155). A degree above 7 has no legal word: it is IllegalCommand (R67).
DEDUCED, safe: log entry 10. -/
def rsgenBody (n : Byte) (s : State) : Except Raise State :=
  if n.toNat ≤ Config.genMax then
    .ok { s with gen := registers 8 (rsGen s.tables n.toNat), genDeg := n.setWidth 4 }
  else .error ⟨.illegalCommand, 0⟩

/-- The pseudocode of RSECC (R156). -/
def rseccBody (s : State) : Except Raise State :=
  .ok { s with ecc := registers Config.nEcc (rsEcc s.tables s.dataCodewords), stage := .ecc }

/-- The pseudocode of RSCHK (R158). -/
def rschkBody (s : State) : Except Raise State :=
  .ok { s with rem := registers Config.nEcc (rsRemainder s.tables s.allCodewords) }

/-- RSGEN n (R155). -/
def execRsgen (n : Byte) (s : State) : Host.Outcome State Fault Refusal := runCommand (.rsgen n) (rsgenBody n) s

/-- RSECC (R156). -/
def execRsecc (s : State) : Host.Outcome State Fault Refusal := runCommand .rsecc rseccBody s

/-- RSCHK (R158). -/
def execRschk (s : State) : Host.Outcome State Fault Refusal := runCommand .rschk rschkBody s

end Sys2Proof.Machine
end

