-- ==== Sys2Proof/Machine/Control.lean ====
section
/-! DEFINITION. The control commands NOP and GENQR (46_control.md). -/

namespace Sys2Proof.Machine

/-- NOP: nothing but `ERR` <- 0 (R240). -/
def execNop (s : State) : Host.Outcome State Fault Refusal := runCommand .nop (fun s => .ok s) s

/-- Go on with the next part, unless a part raised an error (R241). -/
def andThen (r : Except Raise State) (next : State → Except Raise State) : Except Raise State :=
  match r with
  | .ok s => next s
  | .error e => .error e

/-- The pseudocode of GENQR: the pseudocode of the five parts in order, without their stage checks and their
`ERR` <- 0; a raise in any part ends it with that error (R241). -/
def genqrBody (s : State) : Except Raise State :=
  andThen (andThen (andThen (andThen (bsencBody s) rseccBody) mxbuildBody) maskselBody) fmtwrBody

/-- GENQR (R241). -/
def execGenqr (s : State) : Host.Outcome State Fault Refusal := runCommand .genqr genqrBody s

end Sys2Proof.Machine
end

