-- ==== Sys2Proof/Machine/Dispatch.lean ====
section
/-! DEFINITION. One arm per command, each one call of its meaning. -/

namespace Sys2Proof.Machine

def exec (i : Instr) (s : State) : Host.Outcome State Fault Refusal :=
  match i with
  | .nop => Sys2Proof.Machine.execNop s
  | .gfadd a b => Sys2Proof.Machine.execGfadd a b s
  | .gfsub a b => Sys2Proof.Machine.execGfsub a b s
  | .gfmul a b => Sys2Proof.Machine.execGfmul a b s
  | .gfdiv a b => Sys2Proof.Machine.execGfdiv a b s
  | .gfinv a => Sys2Proof.Machine.execGfinv a s
  | .gfpow n => Sys2Proof.Machine.execGfpow n s
  | .bsenc => Sys2Proof.Machine.execBsenc s
  | .rsgen n => Sys2Proof.Machine.execRsgen n s
  | .rsecc => Sys2Proof.Machine.execRsecc s
  | .rschk => Sys2Proof.Machine.execRschk s
  | .mxbuild => Sys2Proof.Machine.execMxbuild s
  | .masksel => Sys2Proof.Machine.execMasksel s
  | .fmtwr => Sys2Proof.Machine.execFmtwr s
  | .genqr => Sys2Proof.Machine.execGenqr s

end Sys2Proof.Machine
end

