-- ==== Sys2Proof/Machine/Window.lean ====
section
/-! DEFINITION. The register window (20_memory.md R40 to R49): what each word address names, and what a host read of it
returns. -/

namespace Sys2Proof.Machine

/-- What a word address of the window names (R43). -/
inductive Loc where
  | cmd | status | result | len | best | genDeg | errCmd | errInfo
  | inp (i : Fin 17)
  | dcw (i : Fin 19)
  | ecc (i : Fin 7)
  | gen (i : Fin 8)
  | rem (i : Fin 7)
  | pen (k : Fin 8)
  | row (y : Fin 21)
  | frow (y : Fin 21)
  | exp (i : Fin 255)
  /-- `LOG[0]`, which has no value (R49). -/
  | logZero
  /-- `LOG[i + 1]`. -/
  | log (i : Fin 255)
  | reserved
  | unmapped
  deriving DecidableEq, Repr

/-- The address map (R43). Addresses outside 0x000..0x3FF do not reach the window (R47); the map gives them no register. -/
def Loc.ofAddr (a : Nat) : Loc :=
  if a = 0x000 then .cmd
  else if a = 0x001 then .status
  else if a = 0x002 then .result
  else if a = 0x003 then .len
  else if a = 0x004 then .best
  else if a = 0x005 then .genDeg
  else if a = 0x006 then .errCmd
  else if a = 0x007 then .errInfo
  else if h : 0x010 ≤ a ∧ a < 0x021 then .inp ⟨a - 0x010, by omega⟩
  else if h : 0x030 ≤ a ∧ a < 0x043 then .dcw ⟨a - 0x030, by omega⟩
  else if h : 0x048 ≤ a ∧ a < 0x04F then .ecc ⟨a - 0x048, by omega⟩
  else if h : 0x050 ≤ a ∧ a < 0x058 then .gen ⟨a - 0x050, by omega⟩
  else if h : 0x058 ≤ a ∧ a < 0x05F then .rem ⟨a - 0x058, by omega⟩
  else if h : 0x060 ≤ a ∧ a < 0x068 then .pen ⟨a - 0x060, by omega⟩
  else if h : 0x080 ≤ a ∧ a < 0x095 then .row ⟨a - 0x080, by omega⟩
  else if h : 0x0A0 ≤ a ∧ a < 0x0B5 then .frow ⟨a - 0x0A0, by omega⟩
  else if h : 0x100 ≤ a ∧ a < 0x1FF then .exp ⟨a - 0x100, by omega⟩
  else if a = 0x200 then .logZero
  else if h : 0x201 ≤ a ∧ a < 0x300 then .log ⟨a - 0x201, by omega⟩
  else if a < 0x300 then .reserved
  else .unmapped

/-- The word address of a register (R43), which `WR name` and `RD name` of a host script stand for (R71). For the two
kinds of address that name no register it is the lowest one. -/
def Loc.addr : Loc → Nat
  | .cmd => 0x000
  | .status => 0x001
  | .result => 0x002
  | .len => 0x003
  | .best => 0x004
  | .genDeg => 0x005
  | .errCmd => 0x006
  | .errInfo => 0x007
  | .inp i => 0x010 + i.val
  | .dcw i => 0x030 + i.val
  | .ecc i => 0x048 + i.val
  | .gen i => 0x050 + i.val
  | .rem i => 0x058 + i.val
  | .pen k => 0x060 + k.val
  | .row y => 0x080 + y.val
  | .frow y => 0x0A0 + y.val
  | .exp i => 0x100 + i.val
  | .logZero => 0x200
  | .log i => 0x201 + i.val
  | .reserved => 0x008
  | .unmapped => 0x300

/-- The word a host read of `a` returns (R41): the register zero-extended to 32 bits, or 0 for `CMD`, reserved and
unmapped addresses. `draw` is the value of `LOG[0]` for this read (R49). -/
def State.wordAt (s : State) (draw : Byte) : Loc → Word
  | .cmd => 0
  | .status => s.statusWord
  | .result => s.result.setWidth 32
  | .len => s.len.setWidth 32
  | .best => s.best.setWidth 32
  | .genDeg => s.genDeg.setWidth 32
  | .errCmd => s.errCmd
  | .errInfo => s.errInfo.setWidth 32
  | .inp i => s.inp[i].setWidth 32
  | .dcw i => s.dcw[i].setWidth 32
  | .ecc i => s.ecc[i].setWidth 32
  | .gen i => s.gen[i].setWidth 32
  | .rem i => s.rem[i].setWidth 32
  | .pen k => s.pen[k].setWidth 32
  | .row y => s.color.rows[y].setWidth 32
  | .frow y => s.func.rows[y].setWidth 32
  | .exp i => (s.tables.exp.read i.val i.isLt).setWidth 32
  | .logZero => draw.setWidth 32
  | .log i => (s.tables.log.read i.val i.isLt).setWidth 32
  | .reserved => 0
  | .unmapped => 0

/-- `MemRead(addr, 4)` (R41): the word is handed to the host and no register of the block changes. A read of `LOG[0]`
takes a fresh draw (R49). -/
def hostRead (a : Nat) (s : State) : State :=
  { s with
    reads := s.reads ++ [s.wordAt (Config.logZeroDraw s.draws) (Loc.ofAddr a)]
    draws := if Loc.ofAddr a = .logZero then s.draws + 1 else s.draws }

end Sys2Proof.Machine
end

