-- ==== Sys2Proof/Machine/HostPort.lean ====
section
/-! DEFINITION. What the host can do to the block (70_reset_and_hazards.md R300): write, read, reset. -/

namespace Sys2Proof.Machine

/-- Executing a command word written to `CMD` while `FATAL` = 0 (R73): an illegal word raises IllegalCommand before
anything else is looked at. -/
def executeWord (w : Word) (s : State) : Host.Outcome State Fault Refusal :=
  match decode w with
  | .ok i => exec i s
  | .error _ => .next (raiseError w ⟨.illegalCommand, 0⟩ s)

/-- `MemWrite(addr, 4, v)` (R42). Bits of `v` above the register's width are dropped. -/
def hostWrite (a : Nat) (v : Word) (s : State) : Host.Outcome State Fault Refusal :=
  if s.fatal then .next s
  else
    match Loc.ofAddr a with
    | .cmd => executeWord v s
    | .len => .next { s with len := v.setWidth Config.lenW }
    | .inp i => .next { s with inp := s.inp.set i.val (v.setWidth Config.cpw) }
    | .status | .result | .best | .genDeg | .errCmd | .errInfo | .dcw _ | .ecc _ | .gen _ | .rem _ | .pen _ | .row _
    | .frow _ | .exp _ | .logZero | .log _ | .reserved | .unmapped => .next s

/-- Reset: every register of R36 takes its reset value (R291). What the host still has to do, what it has read and how
many draws it has taken are not the block's state and stay. DESIGN CHOICE: log entries 1, 2 and 3. -/
def assertReset (s : State) : State := { State.reset with pending := s.pending, reads := s.reads, draws := s.draws }

/-- One host action (R71, R300). An access that is not one whole word, or whose address is outside the window, has no
meaning and is refused (R44, R47, R300). DEDUCED, safe: log entry 5. -/
def hostAct (act : HostAction) (s : State) : Host.Outcome State Fault Refusal :=
  match act with
  | .reset => .next (assertReset s)
  | .read a size =>
    if size ≠ 4 then .refused .notOneWord
    else if Config.windowSize ≤ a then .refused .outsideWindow
    else .next (hostRead a s)
  | .write a size v =>
    if size ≠ 4 then .refused .notOneWord
    else if Config.windowSize ≤ a then .refused .outsideWindow
    else hostWrite a v s

end Sys2Proof.Machine
end

