-- ==== Sys2Proof/Machine/Step.lean ====
section
/-! DEFINITION. One step: the host's next action takes effect whole (20_memory.md R50, 70_reset_and_hazards.md R295). -/

namespace Sys2Proof.Machine

/-- The block takes a step only when the host acts (R12): the next pending action is taken off the list and performed,
a command as one atomic step. With no action pending all state survives (R278).
DESIGN CHOICE: log entry 4. -/
def step (s : State) : Host.Outcome State Fault Refusal :=
  match s.pending with
  | [] => .next s
  | act :: rest => hostAct act { s with pending := rest }

/-- `s` with a write of the command word `w` to `CMD` as the host's next action, before the actions already pending
(R60, R71). DESIGN CHOICE: log entry 2. -/
def State.withFetchWord (s : State) (nbits w : Nat) : State :=
  { s with pending := .write 0x000 4 (BitVec.ofNat 32 (w % 2 ^ nbits)) :: s.pending }

end Sys2Proof.Machine
end

