-- ==== Sys2Proof/Machine/Script.lean ====
section
/-! DEFINITION. Host scripts (30_encoding.md R70 to R72): the actions the script lines stand for, the three
pseudo-instructions, and the assembler syntax of commands. -/

namespace Sys2Proof.Machine

/-- `WR name, v` (R71). -/
def scriptWrite (r : Loc) (v : Word) : HostAction := .write r.addr 4 v

/-- `RD name` (R71). The expected value that may follow is the reader's to compare with `State.reads`. -/
def scriptRead (r : Loc) : HostAction := .read r.addr 4

/-- A command line: `MemWrite(0x000, 4, word)` (R71). -/
def scriptCommand (i : Instr) : HostAction := scriptWrite .cmd (encode i)

/-- `LOADB b0, b1, ...`: `WR LEN, n` and the first 17 code units (R72). -/
def loadUnits (units : List Word) : List HostAction :=
  scriptWrite .len (BitVec.ofNat 32 units.length) ::
    ((List.finRange 17).zip units).map fun p => scriptWrite (.inp p.1) p.2

/-- `LOAD "text"`: the code points of the characters (R72). -/
def loadText (text : List Char) : List HostAction := loadUnits (text.map fun c => BitVec.ofNat 32 c.toNat)

/-- `ENCODE`: the five stage commands (R72). -/
def encodeScript : List HostAction := [.bsenc, .rsecc, .mxbuild, .masksel, .fmtwr].map scriptCommand

/-- The value of a digit, of either case. -/
def digitValue (c : Char) : Nat :=
  if '0' ≤ c ∧ c ≤ '9' then c.toNat - '0'.toNat
  else if 'A' ≤ c ∧ c ≤ 'F' then c.toNat - 'A'.toNat + 10
  else if 'a' ≤ c ∧ c ≤ 'f' then c.toNat - 'a'.toNat + 10
  else 16

/-- A number in the given base, after the digits that `acc` stands for. -/
def parseDigits (base acc : Nat) : List Char → Option Nat
  | [] => some acc
  | c :: cs => if digitValue c < base then parseDigits base (acc * base + digitValue c) cs else none

/-- A number, decimal or `0x` hexadecimal (R70). -/
def parseNumber : List Char → Option Nat
  | '0' :: 'x' :: c :: cs => parseDigits 16 0 (c :: cs)
  | c :: cs => parseDigits 10 0 (c :: cs)
  | [] => none

/-- The operands, separated by commas; `field` holds the characters of the one being read, last first.
R70 says nothing of spaces: those around an operand and those inside one are dropped, so `1 4` is read as 14. DESIGN
CHOICE, safe: log entry 11. -/
def parseOperands (field : List Char) : List Char → Option (List Nat)
  | [] => (parseNumber field.reverse).map fun n => [n]
  | ',' :: cs => (parseNumber field.reverse).bind fun n => (parseOperands [] cs).map fun ns => n :: ns
  | c :: cs => parseOperands (if c = ' ' then field else c :: field) cs

/-- The command with the given mnemonic and operands (R70). An operand that does not fit its field, and a degree above 7,
are rejected. DEDUCED, safe: log entry 11. -/
def assembleParts (mnemonic : List Char) (operands : List Nat) : Option Instr :=
  let byte? (n : Nat) : Option Byte := if n < 256 then some (BitVec.ofNat 8 n) else none
  let two (i : Byte → Byte → Instr) (a b : Nat) : Option Instr :=
    (byte? a).bind fun a => (byte? b).map fun b => i a b
  match mnemonic, operands with
  | ['N', 'O', 'P'], [] => some .nop
  | ['G', 'F', 'A', 'D', 'D'], [a, b] => two .gfadd a b
  | ['G', 'F', 'S', 'U', 'B'], [a, b] => two .gfsub a b
  | ['G', 'F', 'M', 'U', 'L'], [a, b] => two .gfmul a b
  | ['G', 'F', 'D', 'I', 'V'], [a, b] => two .gfdiv a b
  | ['G', 'F', 'I', 'N', 'V'], [a] => (byte? a).map .gfinv
  | ['G', 'F', 'P', 'O', 'W'], [n] => if n < 2 ^ Config.nPow then some (.gfpow (BitVec.ofNat _ n)) else none
  | ['B', 'S', 'E', 'N', 'C'], [] => some .bsenc
  | ['R', 'S', 'G', 'E', 'N'], [n] => if n ≤ Config.genMax then some (.rsgen (BitVec.ofNat 8 n)) else none
  | ['R', 'S', 'E', 'C', 'C'], [] => some .rsecc
  | ['R', 'S', 'C', 'H', 'K'], [] => some .rschk
  | ['M', 'X', 'B', 'U', 'I', 'L', 'D'], [] => some .mxbuild
  | ['M', 'A', 'S', 'K', 'S', 'E', 'L'], [] => some .masksel
  | ['F', 'M', 'T', 'W', 'R'], [] => some .fmtwr
  | ['G', 'E', 'N', 'Q', 'R'], [] => some .genqr
  | _, _ => none

/-- A command line in the syntax of R70: the mnemonic in capitals, then its operands separated by commas. -/
def assemble (line : List Char) : Option Instr :=
  let mnemonic := line.takeWhile fun c => c ≠ ' '
  let rest := line.drop mnemonic.length
  if rest.all fun c => c = ' ' then assembleParts mnemonic []
  else (parseOperands [] rest).bind fun operands => assembleParts mnemonic operands

end Sys2Proof.Machine
end

