-- ==== Sys2Proof/Safety.lean ====
section
/-! DEFINITION. What counts as a good run and a good state: the end of a run (70_reset_and_hazards.md R298), the output
(46_control.md R245), and the invariants of the state (10_state.md R35). -/

namespace Sys2Proof.Machine

/-- How a host script whose last action has been performed has ended (R298). The spec names the first three. DEDUCED,
safe: log entry 15. -/
inductive RunEnd where
  /-- `FATAL` = 0, `ERR` = 0 and `STAGE` = 5. -/
  | success
  /-- `FATAL` = 0 and `ERR` ≠ 0. -/
  | reportedFailure
  /-- `FATAL` = 1. -/
  | fatalFailure
  /-- None of the three: no error, and no finished grid. -/
  | noOutput
  deriving DecidableEq, Repr

/-- The run has ended: the host's last action has been performed, so none is pending (R245, R298). -/
def State.ended (s : State) : Bool := s.pending = []

/-- How the run has ended (R298); a run with actions still to be performed has not ended. -/
def State.runEnd (s : State) : Option RunEnd :=
  if s.ended then
    some (if s.fatal then .fatalFailure
      else if s.err ≠ none then .reportedFailure
      else if s.stage = .done then .success
      else .noOutput)
  else none

/-- The output of the block: the plane `COLOR` when `STAGE` = DONE, and in no other stage (R245). -/
def State.output (s : State) : Option Plane := if s.stage = .done then some s.color else none

/-- The two equations of R102 for a pair of tables. -/
def GfTables.Inverse (t : GfTables) : Prop :=
  (∀ (v : Byte) (h : v ≠ 0#8), t.gfExp (t.logOf v h).toNat = v) ∧
    ∀ i < 255, ∃ h : t.gfExp i ≠ 0#8, (t.logOf (t.gfExp i) h).toNat = i

/-- The function-flag plane every finished MXBUILD leaves (R177). -/
def functionPlane : Plane := (functionPatterns darkModule).func

/-- The state invariant: R35 items 2 to 5, the constant tables from which item 1 follows (R23, R24), and the facts the
spec states beside them. -/
structure State.Inv (s : State) : Prop where
  /-- The tables hold what reset put there (R23, R24). -/
  tables_constant : s.tables = romTables
  /-- `STAGE` = 0: every per-encode register holds its reset value (R35 item 5). -/
  idle_cleared : s.stage = .idle → clearEncodeState s = s
  /-- `STAGE` ≥ 1: the first four bits of the data segment are `0100` (R35 item 4). -/
  mode_indicator : s.stage ≠ .idle → (bits8 s.dcw[0]).take 4 = [false, true, false, false]
  /-- `STAGE` ≥ 2: `ECC` belongs to `DCW` (R27, R158). -/
  ecc_of_data : s.stage ≠ .idle → s.stage ≠ .data → s.ecc = registers Config.nEcc (rsEcc s.tables s.dataCodewords)
  /-- `STAGE` ≥ 3: the function flags are those of R177. -/
  function_flags : s.stage = .placed ∨ s.stage = .masked ∨ s.stage = .done → s.func = functionPlane
  /-- `STAGE` ≥ 4: `BEST` is the smallest-penalty candidate, ties broken by lowest id (R35 item 3). -/
  best_least : s.stage = .masked ∨ s.stage = .done →
    ∀ k : Fin 8, (s.pen[s.best.toNat]'s.best.isLt).toNat ≤ s.pen[k].toNat ∧
      (k.val < s.best.toNat → (s.pen[s.best.toNat]'s.best.isLt).toNat < s.pen[k].toNat)
  /-- No penalty exceeds 1998 (R20). -/
  pen_bound : ∀ k : Fin 8, s.pen[k].toNat ≤ 1998
  /-- `REM` is always seven zeros (R158). -/
  rem_zero : s.rem = Vector.replicate _ 0
  /-- `GENDEG` is 0..7, and the registers above it are 0 (R18). -/
  gen_degree : s.genDeg.toNat ≤ Config.genMax ∧ ∀ j : Fin 8, s.genDeg.toNat < j.val → s.gen[j] = 0
  /-- The fatal state: `STAGE` = 0 and a fatal code in `ERR` (R268). -/
  fatal_state : s.fatal = true →
    s.stage = .idle ∧ (s.err = some .divideByZero ∨ s.err = some .placementInvariantViolation)
  /-- After an error with code 1 to 4 no encode is in progress and no output exists (R267, R298). -/
  aborted_idle : ∀ e, s.err = some e → e.aborts = true → s.stage = .idle

end Sys2Proof.Machine
end

