-- ==== Sys2Proof/Certificates/Slice0/Obligations.lean ====
section
/-! DEFINITION. The statements for the provers, and the tables of the spec that they are written against. -/

namespace Sys2Proof.Spec

open Sys2Proof.Machine

/-- The state after an error with code 1 to 4: `abort_encode()` and the record of the error (R266, R267). -/
def aborted (s : State) (e : ErrorKind) (word : Word) (info : BitVec 16) (fatal : Bool) : State :=
  { s with
    dcw := Vector.replicate _ 0
    ecc := Vector.replicate _ 0
    rem := Vector.replicate _ 0
    pen := Vector.replicate _ 0
    best := 0
    color := ⟨Vector.replicate _ 0⟩
    func := ⟨Vector.replicate _ 0⟩
    stage := .idle
    err := some e
    errCmd := word
    errInfo := info
    fatal := fatal }

/-- The state after an error with code 5 or 6: only the record of the error (R265). -/
def recorded (s : State) (e : ErrorKind) (word : Word) (info : BitVec 16) : State :=
  { s with err := some e, errCmd := word, errInfo := info }

/-- The state after StageOrder raised by the command with word `word`: `ERRINFO` records `STAGE` (R260, R27). -/
def outOfOrder (s : State) (word : Word) : State :=
  recorded s .stageOrder word
    (match s.stage with | .idle => 0 | .data => 1 | .ecc => 2 | .placed => 3 | .masked => 4 | .done => 5)

/-- The input is one BSENC accepts: at most 17 code units, each at most 255 (R132, R133). -/
def ValidInput (s : State) : Prop :=
  s.len.toNat ≤ 17 ∧ ∀ j : Fin 17, j.val < s.len.toNat → s.inp[j].toNat ≤ 255

/-- The bytes of the text, `IN[0][7:0], ..., IN[LEN-1][7:0]` (R130). -/
def text (s : State) : List Byte := (s.inp.toList.take s.len.toNat).map fun u => u.setWidth 8

/-- The opcodes of format Z (R61). -/
def zOpcodes : List Nat := [0x00, 0x10, 0x12, 0x13, 0x14, 0x15, 0x16, 0x1F]

/-- The opcode of a word, its bits 31..24 (R60). -/
def opcode (w : Word) : Nat := w.toNat / 0x1000000

/-- R67's words that select no row: the opcode is not listed, a "must be 0" field is not 0, or RSGEN with `a` > 7. -/
def Illegal (w : Word) : Prop :=
  opcode w ∉ zOpcodes ++ [0x01, 0x02, 0x03, 0x04, 0x05, 0x06, 0x11] ∨
    (opcode w ∈ zOpcodes ∧ w.toNat % 0x1000000 ≠ 0) ∨
    (opcode w ∈ [0x01, 0x02, 0x03, 0x04] ∧ w.toNat / 0x10000 % 0x100 ≠ 0) ∨
    (opcode w ∈ [0x05, 0x11] ∧ w.toNat / 0x100 % 0x10000 ≠ 0) ∨
    (opcode w = 0x11 ∧ 7 < w.toNat % 0x100)

/-- The match and mask columns of the opcode map, in its order (R66). -/
def opcodeMap : List (Word × Word) :=
  [(0x00000000, 0xFFFFFFFF), (0x01000000, 0xFFFF0000), (0x02000000, 0xFFFF0000), (0x03000000, 0xFFFF0000),
    (0x04000000, 0xFFFF0000), (0x05000000, 0xFFFFFF00), (0x06000000, 0xFF000000), (0x10000000, 0xFFFFFFFF),
    (0x11000000, 0xFFFFFFF8), (0x12000000, 0xFFFFFFFF), (0x13000000, 0xFFFFFFFF), (0x14000000, 0xFFFFFFFF),
    (0x15000000, 0xFFFFFFFF), (0x16000000, 0xFFFFFFFF), (0x1F000000, 0xFFFFFFFF)]

/-- The number, counted from 0, of a command's row of the opcode map (R66). -/
def rowNumber : Instr → Nat
  | .nop => 0 | .gfadd _ _ => 1 | .gfsub _ _ => 2 | .gfmul _ _ => 3 | .gfdiv _ _ => 4 | .gfinv _ => 5 | .gfpow _ => 6
  | .bsenc => 7 | .rsgen _ => 8 | .rsecc => 9 | .rschk => 10 | .mxbuild => 11 | .masksel => 12 | .fmtwr => 13
  | .genqr => 14

/-- One word of each row of the opcode map, opcode and fields written out bit by bit, with the command it stands for
(R61 to R66). -/
def sampleWords : List (Word × Instr) :=
  [ (0b00000000_000000000000000000000000#32, .nop),
    (0b00000001_00000000_01010011_11001010#32, .gfadd 0x53 0xCA),
    (0b00000010_00000000_01010011_11001010#32, .gfsub 0x53 0xCA),
    (0b00000011_00000000_01010011_11001010#32, .gfmul 0x53 0xCA),
    (0b00000100_00000000_01010011_11001010#32, .gfdiv 0x53 0xCA),
    (0b00000101_0000000000000000_01010011#32, .gfinv 0x53),
    (0b00000110_000000000000001111101000#32, .gfpow 1000),
    (0b00010000_000000000000000000000000#32, .bsenc),
    (0b00010001_0000000000000000_00000010#32, .rsgen 2),
    (0b00010010_000000000000000000000000#32, .rsecc),
    (0b00010011_000000000000000000000000#32, .rschk),
    (0b00010100_000000000000000000000000#32, .mxbuild),
    (0b00010101_000000000000000000000000#32, .masksel),
    (0b00010110_000000000000000000000000#32, .fmtwr),
    (0b00011111_000000000000000000000000#32, .genqr) ]

/-- The value of `STATUS` from its fields: `STAGE` in bits 2:0, `OUTV` bit 3, `FATAL` bit 4, `TBLRDY` bit 7, `ERR` in
bits 11:8 (R26). -/
def status (s : State) : Word :=
  let stage := match s.stage with | .idle => 0 | .data => 1 | .ecc => 2 | .placed => 3 | .masked => 4 | .done => 5
  let err := match s.err with
    | none => 0 | some .inputTooLong => 1 | some .invalidCharacter => 2 | some .divideByZero => 3
    | some .placementInvariantViolation => 4 | some .illegalCommand => 5 | some .stageOrder => 6
  BitVec.ofNat 32 (stage + (if stage = 5 then 8 else 0) + (if s.fatal then 16 else 0) + 128 + err * 256)

/-- The word at a word address of the window (R43), `draw` being what `LOG[0]` reads as this time (R49). -/
def window (s : State) (draw : Byte) (a : Nat) : Word :=
  if a = 0x001 then status s
  else if a = 0x002 then s.result.setWidth 32
  else if a = 0x003 then s.len.setWidth 32
  else if a = 0x004 then s.best.setWidth 32
  else if a = 0x005 then s.genDeg.setWidth 32
  else if a = 0x006 then s.errCmd
  else if a = 0x007 then s.errInfo.setWidth 32
  else if 0x010 ≤ a ∧ a ≤ 0x020 then (s.inp.toList.getD (a - 0x010) 0).setWidth 32
  else if 0x030 ≤ a ∧ a ≤ 0x042 then (s.dcw.toList.getD (a - 0x030) 0).setWidth 32
  else if 0x048 ≤ a ∧ a ≤ 0x04E then (s.ecc.toList.getD (a - 0x048) 0).setWidth 32
  else if 0x050 ≤ a ∧ a ≤ 0x057 then (s.gen.toList.getD (a - 0x050) 0).setWidth 32
  else if 0x058 ≤ a ∧ a ≤ 0x05E then (s.rem.toList.getD (a - 0x058) 0).setWidth 32
  else if 0x060 ≤ a ∧ a ≤ 0x067 then (s.pen.toList.getD (a - 0x060) 0).setWidth 32
  else if 0x080 ≤ a ∧ a ≤ 0x094 then (s.color.rows.toList.getD (a - 0x080) 0).setWidth 32
  else if 0x0A0 ≤ a ∧ a ≤ 0x0B4 then (s.func.rows.toList.getD (a - 0x0A0) 0).setWidth 32
  else if 0x100 ≤ a ∧ a ≤ 0x1FE then (s.tables.exp.entries.getD (a - 0x100) 0).setWidth 32
  else if a = 0x200 then draw.setWidth 32
  else if 0x201 ≤ a ∧ a ≤ 0x2FF then (s.tables.log.entries.getD (a - 0x201) 0).setWidth 32
  else 0

/-- Multiplication of a field element by x, modulo 0x11D, on polynomials over GF(2) (R100). -/
def timesX (a : Nat) : Nat := if a < 128 then 2 * a else (2 * a) ^^^ 0x11D

/-- The product of two polynomials over GF(2) modulo 0x11D by shift and reduce, `steps` bits of `b`: no table is read
(R105's cross-check). -/
def shiftAndReduce : Nat → Nat → Nat → Nat
  | 0, _, _ => 0
  | steps + 1, a, b => (if b % 2 = 1 then a else 0) ^^^ shiftAndReduce steps (timesX a) (b / 2)

/-- The value of a polynomial, highest degree first, at a field element (R150). -/
def evaluate (t : GfTables) (p : List Byte) (z : Byte) : Byte := p.foldl (fun acc c => gfAdd (gfMul t acc z) c) 0

/-- `rs_gen(n)` for n = 0..7 as R151 lists it, with the registers above the degree 0 (R155). -/
def generatorRows : Vector (Vector Byte 8) 8 :=
  #v[#v[0x01, 0, 0, 0, 0, 0, 0, 0],
     #v[0x01, 0x01, 0, 0, 0, 0, 0, 0],
     #v[0x01, 0x03, 0x02, 0, 0, 0, 0, 0],
     #v[0x01, 0x07, 0x0E, 0x08, 0, 0, 0, 0],
     #v[0x01, 0x0F, 0x36, 0x78, 0x40, 0, 0, 0],
     #v[0x01, 0x1F, 0xC6, 0x3F, 0x93, 0x74, 0, 0],
     #v[0x01, 0x3F, 0x01, 0xDA, 0x20, 0xE3, 0x26, 0],
     #v[0x01, 0x7F, 0x7A, 0x9A, 0xA4, 0x0B, 0x44, 0x75]]

/-- The function-flag plane, by its `FROW` words (R177). -/
def functionPlane : Plane :=
  ⟨#v[0x1FE1FF, 0x1FE1FF, 0x1FE1FF, 0x1FE1FF, 0x1FE1FF, 0x1FE1FF, 0x1FFFFF,
      0x1FE1FF, 0x1FE1FF, 0x000040, 0x000040, 0x000040, 0x000040, 0x0001FF,
      0x0001FF, 0x0001FF, 0x0001FF, 0x0001FF, 0x0001FF, 0x0001FF, 0x0001FF]⟩

/-- The colours after steps 1 to 5, by their `ROW` words (R177, second picture). -/
def patternPlane : Plane :=
  ⟨#v[0x1FC07F, 0x104041, 0x17405D, 0x17405D, 0x17405D, 0x104041, 0x1FD57F,
      0x000000, 0x000040, 0x000000, 0x000040, 0x000000, 0x000040, 0x000100,
      0x00007F, 0x000041, 0x00005D, 0x00005D, 0x00005D, 0x000041, 0x00007F]⟩

/-- `PLACE[0..207]`, eight cells (x, y) per codeword (R180). -/
def place : List (Nat × Nat) :=
    [(20, 20), (19, 20), (20, 19), (19, 19), (20, 18), (19, 18), (20, 17), (19, 17)] ++
    [(20, 16), (19, 16), (20, 15), (19, 15), (20, 14), (19, 14), (20, 13), (19, 13)] ++
    [(20, 12), (19, 12), (20, 11), (19, 11), (20, 10), (19, 10), (20, 9), (19, 9)] ++
    [(18, 9), (17, 9), (18, 10), (17, 10), (18, 11), (17, 11), (18, 12), (17, 12)] ++
    [(18, 13), (17, 13), (18, 14), (17, 14), (18, 15), (17, 15), (18, 16), (17, 16)] ++
    [(18, 17), (17, 17), (18, 18), (17, 18), (18, 19), (17, 19), (18, 20), (17, 20)] ++
    [(16, 20), (15, 20), (16, 19), (15, 19), (16, 18), (15, 18), (16, 17), (15, 17)] ++
    [(16, 16), (15, 16), (16, 15), (15, 15), (16, 14), (15, 14), (16, 13), (15, 13)] ++
    [(16, 12), (15, 12), (16, 11), (15, 11), (16, 10), (15, 10), (16, 9), (15, 9)] ++
    [(14, 9), (13, 9), (14, 10), (13, 10), (14, 11), (13, 11), (14, 12), (13, 12)] ++
    [(14, 13), (13, 13), (14, 14), (13, 14), (14, 15), (13, 15), (14, 16), (13, 16)] ++
    [(14, 17), (13, 17), (14, 18), (13, 18), (14, 19), (13, 19), (14, 20), (13, 20)] ++
    [(12, 20), (11, 20), (12, 19), (11, 19), (12, 18), (11, 18), (12, 17), (11, 17)] ++
    [(12, 16), (11, 16), (12, 15), (11, 15), (12, 14), (11, 14), (12, 13), (11, 13)] ++
    [(12, 12), (11, 12), (12, 11), (11, 11), (12, 10), (11, 10), (12, 9), (11, 9)] ++
    [(12, 8), (11, 8), (12, 7), (11, 7), (12, 5), (11, 5), (12, 4), (11, 4)] ++
    [(12, 3), (11, 3), (12, 2), (11, 2), (12, 1), (11, 1), (12, 0), (11, 0)] ++
    [(10, 0), (9, 0), (10, 1), (9, 1), (10, 2), (9, 2), (10, 3), (9, 3)] ++
    [(10, 4), (9, 4), (10, 5), (9, 5), (10, 7), (9, 7), (10, 8), (9, 8)] ++
    [(10, 9), (9, 9), (10, 10), (9, 10), (10, 11), (9, 11), (10, 12), (9, 12)] ++
    [(10, 13), (9, 13), (10, 14), (9, 14), (10, 15), (9, 15), (10, 16), (9, 16)] ++
    [(10, 17), (9, 17), (10, 18), (9, 18), (10, 19), (9, 19), (10, 20), (9, 20)] ++
    [(8, 12), (7, 12), (8, 11), (7, 11), (8, 10), (7, 10), (8, 9), (7, 9)] ++
    [(5, 9), (4, 9), (5, 10), (4, 10), (5, 11), (4, 11), (5, 12), (4, 12)] ++
    [(3, 12), (2, 12), (3, 11), (2, 11), (3, 10), (2, 10), (3, 9), (2, 9)] ++
    [(1, 9), (0, 9), (1, 10), (0, 10), (1, 11), (0, 11), (1, 12), (0, 12)]

/-- Bit `i` of the placed sequence: bit `7 - i mod 8` of codeword `i div 8` of `DCW` then `ECC` (R178). -/
def placedBit (dcw : Vector Byte 19) (ecc : Vector Byte 7) (i : Nat) : Bool :=
  ((dcw.toList ++ ecc.toList).getD (i / 8) 0).getLsbD (7 - i % 8)

/-- `FMT[0..7]`, character 0 written first (R231). -/
def formatLiterals : List (BitVec 15) :=
  [0b111011111000100, 0b111001011110011, 0b111110110101010, 0b111100010011101, 0b110011000101111, 0b110001100011000,
    0b110110001000001, 0b110100101110110]

/-- `FPRI[0..14]` (R232). -/
def primary : List (Nat × Nat) :=
  [(0, 8), (1, 8), (2, 8), (3, 8), (4, 8), (5, 8), (7, 8), (8, 8), (8, 7), (8, 5), (8, 4), (8, 3), (8, 2), (8, 1), (8, 0)]

/-- `FSEC[0..14]` (R233). -/
def secondary : List (Nat × Nat) :=
  ((List.range 7).map fun t => (8, 20 - t)) ++ (List.range 8).map fun t => (13 + t, 8)

/-- The predicates on the rows y = 0..3, x = 0..11 from left to right, as R201 prints them for k = 0..7. -/
def predicateRows : List (List Nat) :=
  [[0b101010101010, 0b010101010101, 0b101010101010, 0b010101010101],
    [0b111111111111, 0b000000000000, 0b111111111111, 0b000000000000],
    [0b100100100100, 0b100100100100, 0b100100100100, 0b100100100100],
    [0b100100100100, 0b001001001001, 0b010010010010, 0b100100100100],
    [0b111000111000, 0b111000111000, 0b000111000111, 0b000111000111],
    [0b111111111111, 0b100000100000, 0b100100100100, 0b101010101010],
    [0b111111111111, 0b111000111000, 0b110110110110, 0b101010101010],
    [0b101010101010, 0b000111000111, 0b100011100011, 0b010101010101]]

/-- The 2 × 2 windows of one colour, by their top-left cells (R206). -/
def sameColourWindows (c : Plane) : Finset (Nat × Nat) :=
  (Finset.range 20 ×ˢ Finset.range 20).filter fun p =>
    c.get p.1 p.2 = c.get (p.1 + 1) p.2 ∧ c.get p.1 p.2 = c.get p.1 (p.2 + 1) ∧
      c.get p.1 p.2 = c.get (p.1 + 1) (p.2 + 1)

/-- `best` is the smallest mask id of least penalty on the grid (R208). -/
def IsWinner (best : Fin 8) (color func : Plane) : Prop :=
  ∀ k : Fin 8, penalty (maskApply best color func) ≤ penalty (maskApply k color func) ∧
    (k < best → penalty (maskApply best color func) < penalty (maskApply k color func))

/-- Whether the format cell number `t` of both copies holds character `t` of the literal of mask `k` (R234). -/
def HoldsFormat (k : Nat) (color : Plane) : Prop :=
  ∀ t < 15, ∀ c, (primary[t]? = some c ∨ secondary[t]? = some c) →
    color.get c.1 c.2 = (formatLiterals.getD k 0).getLsbD (14 - t)

/-- Long division over GF(2) by x^10+x^8+x^5+x^4+x^2+x+1, one step for each bit position from 14 down to 10 (R231). -/
def bchRemainder : Nat → Nat → Nat
  | 0, r => r
  | step + 1, r => bchRemainder step (if r.testBit (step + 10) then r ^^^ (0x537 <<< step) else r)

/-- `need(c)` of the stage table, `STAGE` by its number (R243). -/
def mayRun : Instr → Stage → Prop
  | .rsecc, st => st = .data
  | .rschk, st => st = .ecc ∨ st = .placed ∨ st = .masked ∨ st = .done
  | .mxbuild, st => st = .ecc
  | .masksel, st => st = .placed
  | .fmtwr, st => st = .masked
  | _, _ => True

/-- The `STAGE` a command leaves when it completes without error (R243). -/
def leaves : Instr → Stage → Stage
  | .bsenc, _ => .data
  | .rsecc, _ => .ecc
  | .mxbuild, _ => .placed
  | .masksel, _ => .masked
  | .fmtwr, _ => .done
  | .genqr, _ => .done
  | _, st => st

/-- The host action is next, before the actions already pending. -/
def next (act : HostAction) (s : State) : State := { s with pending := act :: s.pending }

/-- The lines of R70's table, with numbers in both spellings, and their commands. -/
def commandLines : List (List Char × Instr) :=
  [ (['N', 'O', 'P'], .nop),
    (['G', 'F', 'A', 'D', 'D', ' ', '8', '3', ',', ' ', '2', '0', '2'], .gfadd 0x53 0xCA),
    (['G', 'F', 'S', 'U', 'B', ' ', '0', 'x', '5', '3', ',', ' ', '0', 'x', 'C', 'A'], .gfsub 0x53 0xCA),
    (['G', 'F', 'M', 'U', 'L', ' ', '0', 'x', '5', '3', ',', ' ', '0', 'x', 'C', 'A'], .gfmul 0x53 0xCA),
    (['G', 'F', 'D', 'I', 'V', ' ', '1', ',', ' ', '0'], .gfdiv 1 0),
    (['G', 'F', 'I', 'N', 'V', ' ', '0', 'x', '8', 'F'], .gfinv 0x8F),
    (['G', 'F', 'P', 'O', 'W', ' ', '2', '8', '0'], .gfpow 280),
    (['B', 'S', 'E', 'N', 'C'], .bsenc),
    (['R', 'S', 'G', 'E', 'N', ' ', '7'], .rsgen 7),
    (['R', 'S', 'E', 'C', 'C'], .rsecc),
    (['R', 'S', 'C', 'H', 'K'], .rschk),
    (['M', 'X', 'B', 'U', 'I', 'L', 'D'], .mxbuild),
    (['M', 'A', 'S', 'K', 'S', 'E', 'L'], .masksel),
    (['F', 'M', 'T', 'W', 'R'], .fmtwr),
    (['G', 'E', 'N', 'Q', 'R'], .genqr) ]

end Sys2Proof.Spec

open Sys2Proof Sys2Proof.Machine

/-! ## Encoding -/

/-- Decoding the word of a well-formed command gives the command back, with every operand value (R65, R70). -/
def Obligations.DecodeOfEncode : Prop := ∀ i : Instr, i.wellFormed = true → decode (encode i) = .ok i

/-- A word that decodes is the word of the command it decodes to, and the command is well formed: no bit of a legal word
is ignored (R60 to R67). -/
def Obligations.EncodeOfDecode : Prop :=
  ∀ (w : Word) (i : Instr), decode w = .ok i → i.wellFormed = true ∧ encode i = w

/-- R66: a word decodes to a command exactly when it selects the command's row, the fifteen rows are disjoint, and a word
that selects no row is illegal. -/
def Obligations.DecodeFollowsTheOpcodeMap : Prop :=
  Spec.opcodeMap.length = 15 ∧
  ∀ w : Word,
    (∀ n row, Spec.opcodeMap[n]? = some row →
      ((w &&& row.2) = row.1 ↔ ∃ i, decode w = .ok i ∧ Spec.rowNumber i = n)) ∧
    ((∃ e, decode w = .error e) ↔ ∀ row ∈ Spec.opcodeMap, (w &&& row.2) ≠ row.1) ∧
    (∀ row ∈ Spec.opcodeMap, ∀ row' ∈ Spec.opcodeMap, (w &&& row.2) = row.1 → (w &&& row'.2) = row'.1 → row = row')

/-- A word of every row, written out bit by bit, decodes to its command. -/
def Obligations.SampleWordsDecode : Prop := ∀ p ∈ Spec.sampleWords, decode p.1 = .ok p.2

/-- R67: which words are illegal, and that writing one to `CMD` records IllegalCommand and changes nothing else. -/
def Obligations.IllegalWordRaisesIllegalCommand : Prop :=
  ∀ (w : Word) (s : State),
    ((∃ e, decode w = .error e) ↔ Spec.Illegal w) ∧
    (Spec.Illegal w → s.fatal = false →
      step (Spec.next (.write 0x000 4 w) s) = .next (Spec.recorded s .illegalCommand w 0))

/-- R70: the assembler syntax of every command, and the rejection of a degree above 7. -/
def Obligations.AssemblerReadsEveryCommand : Prop :=
  (∀ p ∈ Spec.commandLines, assemble p.1 = some p.2) ∧ assemble ['R', 'S', 'G', 'E', 'N', ' ', '8'] = none

/-! ## The step and the host's port -/

/-- A step on a write of a legal word to `CMD` runs the decoded command, or nothing while `FATAL` = 1 (R73, R42); the
host's `withFetchWord` places exactly such a write (log entry 2). -/
def Obligations.StepRunsTheDecodedCommand : Prop :=
  ∀ (s : State) (w : Word) (i : Instr), decode w = .ok i →
    step (Spec.next (.write 0x000 4 w) s) = (if s.fatal then .next s else exec i s) ∧
    s.withFetchWord 32 w.toNat = Spec.next (.write 0x000 4 w) s

/-- R42: the host write, address by address. -/
def Obligations.HostWriteFollowsTheMap : Prop :=
  ∀ (s : State) (a : Nat) (v : Word), a < 0x400 →
    step (Spec.next (.write a 4 v) s) =
      (if s.fatal then .next s
      else if a = 0x000 then executeWord v s
      else if a = 0x003 then .next { s with len := v.extractLsb' 0 8 }
      else if h : 0x010 ≤ a ∧ a ≤ 0x020 then
        .next { s with inp := s.inp.set (a - 0x010) (v.extractLsb' 0 16) (by show a - 0x010 < 17; omega) }
      else .next s)

/-- R41: the host read returns the word of the address map and changes no register of the block, in every state. Only the
read of `LOG[0]` depends on more than the state; it takes a draw. The list of the words read and the count of draws are
the model's own (log entries 1 and 3). -/
def Obligations.HostReadReturnsTheMappedWord : Prop :=
  ∀ (s : State) (a : Nat), a < 0x400 →
    step (Spec.next (.read a 4) s) =
      .next { s with
        reads := s.reads ++ [Spec.window s (Config.logZeroDraw s.draws) a]
        draws := if a = 0x200 then s.draws + 1 else s.draws }

/-- R49: a read of `LOG[0]` returns a word whose bits 31..8 are 0 and whose bits 7..0 are a fresh free value. How
the free value is supplied is the model's choice (log entry 1). -/
def Obligations.LogZeroReadIsADraw : Prop :=
  ∀ s : State, ∃ w : Word,
    step (Spec.next (.read 0x200 4) s) = .next { s with reads := s.reads ++ [w], draws := s.draws + 1 } ∧
    w.extractLsb' 8 24 = 0 ∧ w.extractLsb' 0 8 = Config.logZeroDraw s.draws

/-- The step refuses exactly the accesses that are not one word or lie outside the window (R44, R47, R300), and every
other step has a next state. The model's own: a step with no host action pending has a next state (log entry 4, DESIGN
CHOICE); the two refusals, their order (size before address) and that they are given while `FATAL` = 1 too (log entry 5,
DEDUCED); that no step faults, the fatal state being a next state (log entry 7, DEDUCED against R268's sentence that in a
model it is a fault). -/
def Obligations.OnlyMeaninglessAccessesStop : Prop :=
  ∀ s : State,
    (∀ f, step s ≠ .fault f) ∧
    (step s = .refused .notOneWord ↔
      ∃ a n rest, n ≠ 4 ∧ (s.pending = .read a n :: rest ∨ ∃ v, s.pending = .write a n v :: rest)) ∧
    (step s = .refused .outsideWindow ↔
      ∃ a rest, 0x400 ≤ a ∧ (s.pending = .read a 4 :: rest ∨ ∃ v, s.pending = .write a 4 v :: rest)) ∧
    ((∃ t, step s = .next t) ∨ step s = .refused .notOneWord ∨ step s = .refused .outsideWindow)

/-- R43: every register is found at the address the map gives it. -/
def Obligations.RegistersAtTheirAddresses : Prop := ∀ l : Loc, Loc.ofAddr l.addr = l

/-- R46: bit `x` of `ROW[y]` and `FROW[y]` is the cell (x, y), bits 31..21 read 0, and the top row of a finished symbol
has `FROW[0]` = 0x1FE1FF. The output exists exactly when `STATUS.OUTV` = 1 (R245). -/
def Obligations.GridReadout : Prop :=
  ∀ (s : State) (draw : Byte),
    (∀ x < 32, ∀ y < 21,
      (s.wordAt draw (Loc.ofAddr (0x080 + y))).getLsbD x = (decide (x < 21) && s.color.get x y) ∧
      (s.wordAt draw (Loc.ofAddr (0x0A0 + y))).getLsbD x = (decide (x < 21) && s.func.get x y)) ∧
    (s.Inv → s.stage = .done → s.wordAt draw (Loc.ofAddr 0x0A0) = 0x1FE1FF) ∧
    (s.statusWord.getLsbD 3 = true ↔ s.output = some s.color) ∧
    (s.statusWord.getLsbD 3 = false ↔ s.output = none)

/-- LOADB (R72) of any number of code units sets `LEN` to the low 8 bits of their number and the first `IN` registers to
the low 16 bits of the first 17 of them, and nothing else; LOAD does the same with the code points of its characters. -/
def Obligations.LoadSetsTheInput : Prop :=
  (∀ (s : State) (units : List Word), s.fatal = false →
    Host.Core.run Sys2Proof.core (min units.length 17 + 1)
        ({ s with pending := loadUnits units ++ s.pending } : State) =
      .next { s with
        len := BitVec.ofNat 8 units.length
        inp := Vector.ofFn fun i => if h : i.val < units.length then (units[i.val]).setWidth 16 else s.inp[i] }) ∧
  ∀ text : List Char, loadText text = loadUnits (text.map fun c => BitVec.ofNat 32 c.toNat)

/-! ## Reset -/

/-- R36: after reset every register holds its reset value, as the words of the window show it: `STATUS` = 0x80 (`STAGE`,
`ERR`, `FATAL` 0 and `TBLRDY` 1), `EXP` and `LOG[1..255]` the tables of the construction, `LOG[0]` any value, and every
other word 0. -/
def Obligations.ResetLeavesTheStatedState : Prop :=
  ∀ s : State, ∃ t : State, step (Spec.next .reset s) = .next t ∧
    ∀ (draw : Byte) (a : Nat), a < 0x400 →
      Spec.window t draw a =
        if a = 0x001 then 0x00000080
        else if 0x100 ≤ a ∧ a ≤ 0x1FE then (constructedExp.getD (a - 0x100) 0).setWidth 32
        else if a = 0x200 then draw.setWidth 32
        else if 0x201 ≤ a ∧ a ≤ 0x2FF then (constructedLog.getD (a - 0x201) 0).setWidth 32
        else 0

/-- Reset, from every state, gives `State.reset` (R290, R291). That the host's own three fields stay is the model's choice
(log entries 2 and 3). -/
def Obligations.ResetFromEveryState : Prop :=
  ∀ s : State,
    step (Spec.next .reset s) = .next { State.reset with pending := s.pending, reads := s.reads, draws := s.draws }

/-! ## Errors and the fatal state -/

/-- R266, R267: what error entry does, error by error. -/
def Obligations.ErrorEntry : Prop :=
  ∀ (w : Word) (e : ErrorKind) (info : BitVec 16) (s : State),
    raiseError w ⟨e, info⟩ s =
      match e with
      | .inputTooLong | .invalidCharacter => Spec.aborted s e w info s.fatal
      | .divideByZero | .placementInvariantViolation => Spec.aborted s e w info true
      | .illegalCommand | .stageOrder => Spec.recorded s e w info

/-- R244: an executed command ends in exactly one of two ways. -/
def Obligations.CommandEndsCleanOrByErrorEntry : Prop :=
  ∀ (i : Instr) (s : State), s.fatal = false →
    ∃ t, exec i s = .next t ∧
      ((t.err = none ∧ t.errCmd = s.errCmd ∧ t.errInfo = s.errInfo) ∨
        (t.err ≠ none ∧ ∃ r, t = raiseError (encode i) r s))

/-- While `FATAL` = 1 every host write is ignored, every read works and shows the fatal state, and only reset leaves it; it
is no successful end of a run (R268). That writes and reads are steps with a next state there, and that the end of the run
stands for the fault R268 speaks of, is log entry 7 (DEDUCED). -/
def Obligations.FatalStateIsLeftOnlyByReset : Prop :=
  ∀ s : State, s.Inv → s.fatal = true →
    (∀ a < 0x400, ∀ v, step (Spec.next (.write a 4 v) s) = .next s) ∧
    (∀ a < 0x400, ∃ w d, step (Spec.next (.read a 4) s) = .next { s with reads := s.reads ++ [w], draws := d } ∧
      (a = 0x001 → w = 0x00000390 ∨ w = 0x00000490) ∧
      (a = 0x006 → w = s.errCmd) ∧
      (a = 0x007 → w = s.errInfo.setWidth 32) ∧
      (a = 0x004 ∨ (0x030 ≤ a ∧ a < 0x050) ∨ (0x058 ≤ a ∧ a < 0x100) → w = 0)) ∧
    s.tables = romTables ∧
    (∀ (act : HostAction) (t : State), act ≠ .reset → step (Spec.next act s) = .next t →
      t.fatal = true ∧ t.err = s.err ∧ t.errCmd = s.errCmd ∧ t.errInfo = s.errInfo) ∧
    (∃ t, step (Spec.next .reset s) = .next t ∧ t.fatal = false) ∧
    s.runEnd ≠ some .success ∧ (s.pending = [] → s.runEnd = some .fatalFailure)

/-- R263, R264: the only commands that enter the fatal state are GFDIV by 0 and GFINV of 0. -/
def Obligations.FatalEnteredOnlyByZeroDivisor : Prop :=
  ∀ (i : Instr) (s t : State), s.fatal = false → exec i s = .next t → t.fatal = true →
    (∃ a, i = .gfdiv a 0) ∨ i = .gfinv 0

/-! ## GaloisField -/

/-- R110, R111: GFADD and GFSUB write the XOR of their operands and clear `ERR`, and change nothing else. -/
def Obligations.AddAndSubtractAreXor : Prop :=
  ∀ (a b : Byte) (s : State),
    (s.fatal = false →
      exec (.gfadd a b) s = .next { s with result := a ^^^ b, err := none } ∧
      exec (.gfsub a b) s = .next { s with result := a ^^^ b, err := none }) ∧
    (encode (.gfadd a b)).toNat = 0x01000000 + a.toNat * 256 + b.toNat ∧
    (encode (.gfsub a b)).toNat = 0x02000000 + a.toNat * 256 + b.toNat ∧
    (a = b → a ^^^ b = 0) ∧ (a = 0 → a ^^^ b = b) ∧ (b = 0 → a ^^^ b = a) ∧
    (0x53#8 ^^^ 0xCA#8 = 0x99#8)

/-- GFMUL and GFPOW complete with the value their rules read from the tables (R105, R108, R112, R115). -/
def Obligations.MultiplyAndPowerReadTheTables : Prop :=
  ∀ (a b : Byte) (n : BitVec 24) (s : State), s.fatal = false →
    (a = 0#8 ∨ b = 0#8 → exec (.gfmul a b) s = .next { s with result := 0, err := none }) ∧
    (∀ (ha : a ≠ 0#8) (hb : b ≠ 0#8),
      exec (.gfmul a b) s = .next { s with
        result := s.tables.gfExp (((s.tables.logOf a ha).toNat + (s.tables.logOf b hb).toNat) % 255), err := none }) ∧
    exec (.gfpow n) s = .next { s with result := s.tables.gfExp (n.toNat % 255), err := none }

/-- The table multiplication is the product of the two polynomials over GF(2) modulo 0x11D, for all operands (R105). -/
def Obligations.MultiplyIsThePolynomialProduct : Prop :=
  ∀ (a b : Byte) (s : State), s.fatal = false → s.tables = romTables →
    exec (.gfmul a b) s =
      .next { s with result := BitVec.ofNat 8 (Spec.shiftAndReduce 8 a.toNat b.toNat), err := none }

/-- GFDIV and GFINV: the quotient and the inverse, and DivideByZero for a zero divisor or operand, the divisor being
tested first (R106, R107, R113, R114). -/
def Obligations.DivideAndInvert : Prop :=
  ∀ (a b : Byte) (s : State), s.fatal = false →
    (b = 0#8 → exec (.gfdiv a b) s = .next (Spec.aborted s .divideByZero (encode (.gfdiv a b)) 0 true)) ∧
    (b ≠ 0#8 → a = 0#8 → exec (.gfdiv a b) s = .next { s with result := 0, err := none }) ∧
    (∀ (ha : a ≠ 0#8) (hb : b ≠ 0#8),
      exec (.gfdiv a b) s = .next { s with
        result := s.tables.gfExp (((s.tables.logOf a ha).toNat + 255 - (s.tables.logOf b hb).toNat) % 255),
        err := none }) ∧
    (a = 0#8 → exec (.gfinv a) s = .next (Spec.aborted s .divideByZero (encode (.gfinv a)) 0 true)) ∧
    (∀ ha : a ≠ 0#8,
      exec (.gfinv a) s = .next { s with result := s.tables.gfExp (255 - (s.tables.logOf a ha).toNat), err := none })

/-- R116: the field laws, over all operands. -/
def Obligations.FieldLaws : Prop :=
  (∀ a : Byte, a ≠ 0#8 → ∃ v, gfInv romTables a = .ok v ∧ gfMul romTables a v = 1) ∧
  (∀ a b : Byte, gfMul romTables a b = gfMul romTables b a) ∧
  (∀ a b : Byte, b ≠ 0#8 → gfDiv romTables (gfMul romTables a b) b = .ok a) ∧
  (∀ a b : Byte, b ≠ 0#8 → ∃ v, gfInv romTables b = .ok v ∧ gfDiv romTables a b = .ok (gfMul romTables a v)) ∧
  (∀ a : Byte, gfMul romTables a 1 = a) ∧
  (∀ n : Nat, gfPow romTables (n + 255) = gfPow romTables n) ∧
  gfPow romTables 1 = 2

/-- R102: the table invariants hold for the tables of reset, and no step changes the tables to anything else. -/
def Obligations.TablesAreInverseAndImmutable : Prop :=
  romTables.Inverse ∧ ∀ s t : State, step s = .next t → t.tables = s.tables ∨ t.tables = romTables

/-! ## BitStreamEncoder -/

/-- R134: the layout of the data segment, codeword by codeword. -/
def Obligations.DataSegmentLayout : Prop :=
  ∀ data : List Byte, data.length ≤ 17 →
    let n := data.length
    let d := fun i => (data.getD i 0).toNat
    let cw := codewords (bsEncode data)
    (segmentBeforePadding data).length = 16 + 8 * n ∧
    zeroPadding (segmentBeforePadding data) = [] ∧
    (bsEncode data).length = 152 ∧ cw.length = 19 ∧
    (bsEncode data).take 4 = [false, true, false, false] ∧
    cw[0]? = some (BitVec.ofNat 8 (0x40 + n / 16)) ∧
    cw[1]? = some (BitVec.ofNat 8 (n % 16 * 16 + d 0 / 16)) ∧
    (∀ i, 1 ≤ i → i < n → cw[1 + i]? = some (BitVec.ofNat 8 (d (i - 1) % 16 * 16 + d i / 16))) ∧
    (1 ≤ n → cw[1 + n]? = some (BitVec.ofNat 8 (d (n - 1) % 16 * 16))) ∧
    (∀ t < 17 - n, cw[2 + n + t]? = some (if t % 2 = 0 then 0xEC else 0x11))

/-- BSENC on a valid input starts a fresh encode call and writes `DCW` (R130). -/
def Obligations.BsencWritesTheDataCodewords : Prop :=
  ∀ s : State, s.fatal = false → Spec.ValidInput s →
    exec .bsenc s = .next { s with
      dcw := registers 19 (codewords (bsEncode (Spec.text s)))
      ecc := Vector.replicate _ 0
      rem := Vector.replicate _ 0
      pen := Vector.replicate _ 0
      best := 0
      color := ⟨Vector.replicate _ 0⟩
      func := ⟨Vector.replicate _ 0⟩
      stage := .data
      err := none }

/-- R132, R133: InputTooLong before any code unit is looked at, then InvalidCharacter at the lowest offending index; a
valid input raises neither. -/
def Obligations.BadInputAbortsTheEncode : Prop :=
  ∀ (i : Instr) (s : State), i = .bsenc ∨ i = .genqr → s.fatal = false →
    (17 < s.len.toNat → exec i s = .next (Spec.aborted s .inputTooLong (encode i) (s.len.setWidth 16) false)) ∧
    (∀ k : Fin 17, s.len.toNat ≤ 17 → k.val < s.len.toNat → 255 < s.inp[k].toNat →
      (∀ j : Fin 17, j.val < k.val → s.inp[j].toNat ≤ 255) →
      exec i s = .next (Spec.aborted s .invalidCharacter (encode i) (BitVec.ofNat 16 k.val) false)) ∧
    (Spec.ValidInput s → ∃ t, exec i s = .next t ∧ t.err = none)

/-- Code units at indexes `LEN` and above have no influence on an encode (R133, R297, U12). -/
def Obligations.UnusedCodeUnitsAreIgnored : Prop :=
  ∀ (i : Instr) (s : State) (inp' : Vector (BitVec 16) 17), i = .bsenc ∨ i = .genqr →
    (∀ j : Fin 17, j.val < s.len.toNat → inp'[j] = s.inp[j]) →
    ∃ t, exec i s = .next t ∧ exec i { s with inp := inp' } = .next { t with inp := inp' }

/-! ## ReedSolomonEncoder -/

/-- R155: RSGEN writes the generator polynomial of its degree; the word with a degree above 7
raises IllegalCommand. -/
def Obligations.RsgenWritesTheGenerator : Prop :=
  ∀ (n : Byte) (s : State), s.fatal = false →
    (n.toNat < 8 → exec (.rsgen n) s = .next { s with
      gen := registers 8 (rsGen s.tables n.toNat), genDeg := n.setWidth 4, err := none }) ∧
    (∀ h : n.toNat < 8, s.tables = romTables →
      registers 8 (rsGen s.tables n.toNat) = Spec.generatorRows[n.toNat]) ∧
    (7 < n.toNat →
      step (Spec.next (.write 0x000 4 (encode (.rsgen n))) s) =
        .next (Spec.recorded s .illegalCommand (encode (.rsgen n)) 0)) ∧
    (encode (.rsgen n)).toNat = 0x11000000 + n.toNat

/-- The generator polynomial is monic of degree n, has the roots α^0 to α^(n-1), and its constant term is
α^(0+1+...+(n-1)), for every n (R151). -/
def Obligations.GeneratorHasConsecutiveRoots : Prop :=
  ∀ n : Nat,
    (rsGen romTables n).length = n + 1 ∧ (rsGen romTables n)[0]? = some 1 ∧
    (∀ i < n, Spec.evaluate romTables (rsGen romTables n) (gfPow romTables i) = 0) ∧
    (rsGen romTables n)[n]? = some (gfPow romTables (n * (n - 1) / 2))

/-- Re-dividing data codewords followed by their ECC leaves seven zeros, for every 19 codewords (R157). It
holds for every pair of tables, so it says nothing of the field; CodewordVanishesAtTheRoots ties the code to it. -/
def Obligations.ReDivisionLeavesZero : Prop :=
  ∀ (t : GfTables) (d : List Byte), d.length = 19 → rsRemainder t (d ++ rsEcc t d) = List.replicate 7 0

/-- The polynomial of data codewords followed by their ECC is 0 at α^0 to α^6 (R157). -/
def Obligations.CodewordVanishesAtTheRoots : Prop :=
  ∀ d : List Byte, d.length = 19 → ∀ i < 7,
    Spec.evaluate romTables (d ++ rsEcc romTables d) (gfPow romTables i) = 0

/-- `rs_ecc` is linear: the ECC of an XOR is the XOR of the ECCs, and the ECC of zeros is zeros (R154). -/
def Obligations.EccIsLinear : Prop :=
  (∀ d e : List Byte, d.length = 19 → e.length = 19 →
    rsEcc romTables (List.zipWith gfAdd d e) = List.zipWith gfAdd (rsEcc romTables d) (rsEcc romTables e)) ∧
  rsEcc romTables (List.replicate 19 0) = List.replicate 7 0

/-- R156: RSECC in stage DATA writes `ECC`; in every other stage it raises StageOrder. -/
def Obligations.RseccWritesTheEcc : Prop :=
  ∀ s : State, s.fatal = false →
    (s.stage = .data →
      exec .rsecc s = .next { s with ecc := registers 7 (rsEcc s.tables s.dcw.toList), stage := .ecc, err := none }) ∧
    (s.stage ≠ .data → exec .rsecc s = .next (Spec.outOfOrder s 0x12000000)) ∧
    (s.tables = romTables →
      s.dcw = #v[0x40, 0x14, 0x10, 0xEC, 0x11, 0xEC, 0x11, 0xEC, 0x11, 0xEC, 0x11, 0xEC, 0x11, 0xEC, 0x11, 0xEC, 0x11,
        0xEC, 0x11] →
      registers 7 (rsEcc s.tables s.dcw.toList) = #v[0x52, 0x4B, 0xB5, 0x3B, 0xAF, 0x8D, 0xF1])

/-- R158: RSCHK in the stages 2 to 5 writes the remainder of the re-division, which in every state that meets the
invariant is seven zeros; before them it raises StageOrder. -/
def Obligations.RschkLeavesAZeroRemainder : Prop :=
  ∀ s : State, s.fatal = false →
    (s.stage ≠ .idle → s.stage ≠ .data →
      exec .rschk s = .next { s with
        rem := registers 7 (rsRemainder s.tables (s.dcw.toList ++ s.ecc.toList)), err := none } ∧
      (s.Inv → registers 7 (rsRemainder s.tables (s.dcw.toList ++ s.ecc.toList)) = Vector.replicate 7 0)) ∧
    (s.stage = .idle ∨ s.stage = .data → exec .rschk s = .next (Spec.outOfOrder s 0x13000000))

/-! ## MatrixBuilder -/

/-- R177: the two pictures after steps 1 to 5, and the counts 233 and 208. -/
def Obligations.FunctionPatternPictures : Prop :=
  functionPatterns darkModule = ⟨Spec.patternPlane, Spec.functionPlane⟩ ∧
  (allCells.countP fun c => Spec.functionPlane.get c.1 c.2) = 233 ∧ Spec.functionPlane.countZero = 208

/-- R180: the scan of R179 takes the 208 cells of `PLACE` in their order, and they are exactly the non-function modules. -/
def Obligations.PlacementOrder : Prop :=
  (scanOrder.filter fun c => !Spec.functionPlane.get c.1 c.2) = Spec.place ∧ Spec.place.length = 208 ∧
  Spec.place.Nodup ∧
  ∀ x < 21, ∀ y < 21, (x, y) ∈ Spec.place ↔ Spec.functionPlane.get x y = false

/-- R183: MXBUILD in stage ECC places bit i of the sequence on `PLACE[i]` and leaves the patterns on the function modules;
in every other stage it raises StageOrder. -/
def Obligations.MxbuildPlacesEveryBit : Prop :=
  ∀ s : State, s.fatal = false →
    (s.stage = .ecc → ∃ color : Plane,
      exec .mxbuild s =
        .next { s with color := color, func := Spec.functionPlane, stage := .placed, err := none } ∧
      (∀ i c, Spec.place[i]? = some c → color.get c.1 c.2 = Spec.placedBit s.dcw s.ecc i) ∧
      (∀ x y, Spec.functionPlane.get x y = true → color.get x y = Spec.patternPlane.get x y)) ∧
    (s.stage ≠ .ecc → exec .mxbuild s = .next (Spec.outOfOrder s 0x14000000))

/-- R181: a dark module on a cell that is already a function module leaves 209 non-function modules, and the command's
pseudocode raises PlacementInvariantViolation with that count. -/
def Obligations.CollidingDarkModuleIsAViolation : Prop :=
  ∀ (s : State) (x y : Nat), (x, y) ≠ (8, 13) → Spec.functionPlane.get x y = true →
    mxbuildWith (x, y) s = .error ⟨.placementInvariantViolation, 209⟩

/-! ## MaskSelector -/

/-- R201: the formulas of the eight predicates at every (x, y), the rows the rule prints, and how many of the 441 cells
and of the 208 data modules each predicate is true on. -/
def Obligations.PredicateCounts : Prop :=
  ((List.finRange 8).map fun k => allCells.countP fun c => maskPred k c.1 c.2) =
    [221, 231, 147, 147, 222, 194, 293, 219] ∧
  ((List.finRange 8).map fun k => Spec.place.countP fun c => maskPred k c.1 c.2) =
    [104, 104, 72, 68, 102, 90, 132, 108] ∧
  (∀ k : Fin 8, ∀ y < 4, ∀ x < 12,
    maskPred k x y = ((Spec.predicateRows.getD k.val []).getD y 0).testBit (11 - x)) ∧
  ∀ x y : Nat,
    (maskPred 0 x y = true ↔ (x + y) % 2 = 0) ∧
    (maskPred 1 x y = true ↔ y % 2 = 0) ∧
    (maskPred 2 x y = true ↔ x % 3 = 0) ∧
    (maskPred 3 x y = true ↔ (x + y) % 3 = 0) ∧
    (maskPred 4 x y = true ↔ (y / 2 + x / 3) % 2 = 0) ∧
    (maskPred 5 x y = true ↔ (x * y) % 2 + (x * y) % 3 = 0) ∧
    (maskPred 6 x y = true ↔ ((x * y) % 2 + (x * y) % 3) % 2 = 0) ∧
    (maskPred 7 x y = true ↔ ((x + y) % 2 + (x * y) % 3) % 2 = 0)

/-- R202, R203: a masked cell is the old cell, flipped where it is no function module and the predicate is true; applying
a mask twice restores the grid, and no mask changes a function module. -/
def Obligations.MaskIsAnInvolution : Prop :=
  ∀ (k : Fin 8) (color func : Plane),
    maskApply k (maskApply k color func) func = color ∧
    (∀ x < 21, ∀ y < 21,
      (maskApply k color func).get x y = (color.get x y ^^ (!func.get x y && maskPred k x y))) ∧
    ∀ x y, func.get x y = true → (maskApply k color func).get x y = color.get x y

/-- R204: a line's penalty is the sum over its maximal runs; a line of 21 has at most penalty 19. -/
def Obligations.LinePenaltyCountsMaximalRuns : Prop :=
  (∀ runs : List (Bool × Nat), (∀ r ∈ runs, 1 ≤ r.2) → runs.IsChain (fun a b => a.1 ≠ b.1) →
    linePenalty (runs.flatMap fun r => List.replicate r.2 r.1) =
      (runs.map fun r => if r.2 < 5 then 0 else r.2 - 2).sum) ∧
  (∀ l : List Bool, l.length = 21 → linePenalty l ≤ 19)

/-- R205 to R207, R209: Rule A sums the 21 rows and the 21 columns, Rule B counts the windows of one colour, the penalty
is their sum; the bounds, and the grids of the vectors Q2. -/
def Obligations.PenaltyBounds : Prop :=
  (∀ c : Plane, penA c ≤ 798 ∧ penB c ≤ 1200 ∧ penalty c ≤ 1998 ∧ 3 ∣ penB c) ∧
  penalty .clear = 1998 ∧ penalty (.tabulate fun _ _ => true) = 1998 ∧
  penalty (.tabulate fun x y => (x + y) % 2 == 1) = 0 ∧
  (∀ c : Plane,
    penA c = (∑ y ∈ Finset.range 21, linePenalty (List.ofFn fun x : Fin 21 => c.get x.val y)) +
      ∑ x ∈ Finset.range 21, linePenalty (List.ofFn fun y : Fin 21 => c.get x y.val)) ∧
  (∀ c : Plane, penB c = 3 * (Spec.sameColourWindows c).card ∧ penalty c = penA c + penB c) ∧
  (penA (.tabulate fun x _ => x % 2 == 1) = 399 ∧ penB (.tabulate fun x _ => x % 2 == 1) = 0) ∧
  (penA (.tabulate fun _ y => y % 2 == 1) = 399 ∧ penB (.tabulate fun _ y => y % 2 == 1) = 0) ∧
  (penA (.tabulate fun x _ => decide (x < 10)) = 756 ∧ penB (.tabulate fun x _ => decide (x < 10)) = 1140)

/-- R208: MASKSEL in stage PLACED scores the eight candidates on copies of the grid, picks the least penalty with ties
broken by the lowest id, and applies it; in every other stage it raises StageOrder. -/
def Obligations.MaskselPicksTheLeastPenalty : Prop :=
  ∀ s : State, s.fatal = false →
    (s.stage = .placed → ∃ best : Fin 8,
      exec .masksel s = .next { s with
        pen := Vector.ofFn fun k => BitVec.ofNat 16 (penalty (maskApply k s.color s.func))
        best := BitVec.ofNat 3 best.val
        color := maskApply best s.color s.func
        stage := .masked
        err := none } ∧
      Spec.IsWinner best s.color s.func) ∧
    (s.stage ≠ .placed → exec .masksel s = .next (Spec.outOfOrder s 0x15000000))

/-! ## FormatInfoWriter -/

/-- R231, R232, R233, R176: the format words satisfy the standard's derivation, and the 30 cells are distinct and are the
cells MXBUILD reserves. -/
def Obligations.FormatWordsAndCells : Prop :=
  (∀ k : Fin 8, formatWords[k].toNat =
    (((8 + k.val) <<< 10) ^^^ Spec.bchRemainder 5 ((8 + k.val) <<< 10)) ^^^ 0x5412) ∧
  primaryCells = Spec.primary ∧ secondaryCells = Spec.secondary ∧
  (Spec.primary ++ Spec.secondary).Nodup ∧ ∀ c, c ∈ formatStrips ↔ c ∈ Spec.primary ++ Spec.secondary

/-- FMTWR in stage MASKED writes the literal of the winning mask twice and leaves every other module; in every other stage
it raises StageOrder (R230, R234). -/
def Obligations.FmtwrWritesBothCopies : Prop :=
  ∀ s : State, s.fatal = false →
    (s.stage = .masked → ∃ color : Plane,
      exec .fmtwr s = .next { s with color := color, stage := .done, err := none } ∧
      Spec.HoldsFormat s.best.toNat color ∧
      ∀ x y, (x, y) ∉ Spec.primary ++ Spec.secondary → color.get x y = s.color.get x y) ∧
    (s.stage ≠ .masked → exec .fmtwr s = .next (Spec.outOfOrder s 0x16000000))

/-! ## Control -/

/-- R240: NOP sets `ERR` to 0 and does nothing else, and it cannot clear the fatal state. -/
def Obligations.NopOnlyClearsErr : Prop :=
  encode .nop = 0x00000000 ∧
  ∀ s : State,
    (s.fatal = false → exec .nop s = .next { s with err := none }) ∧
    (s.fatal = true → exec .nop s = .next s) ∧
    (s.fatal = false → s.stage = .idle → ({ s with err := none } : State).statusWord = 0x00000080)

/-- The state GENQR leaves on a valid input (R235, R241): `PEN` holds the eight penalties of the placed grid and `BEST` the
smallest id of least penalty; each data module holds its bit XOR the winning predicate, the format modules hold the
literal of the winner, and the other function modules their pattern. -/
def Obligations.GenqrFinalGrid : Prop :=
  ∀ s : State, s.fatal = false → Spec.ValidInput s → ∃ (t : State) (best : Fin 8) (placed : Plane),
    exec .genqr s = .next t ∧
    (∀ i c, Spec.place[i]? = some c → placed.get c.1 c.2 = Spec.placedBit t.dcw t.ecc i) ∧
    (∀ x y, Spec.functionPlane.get x y = true → placed.get x y = Spec.patternPlane.get x y) ∧
    Spec.IsWinner best placed Spec.functionPlane ∧
    t = { s with
      dcw := registers 19 (codewords (bsEncode (Spec.text s)))
      ecc := registers 7 (rsEcc s.tables t.dcw.toList)
      rem := Vector.replicate _ 0
      pen := Vector.ofFn fun k => BitVec.ofNat 16 (penalty (maskApply k placed Spec.functionPlane))
      best := BitVec.ofNat 3 best.val
      color := t.color
      func := Spec.functionPlane
      stage := .done
      err := none } ∧
    (∀ i c, Spec.place[i]? = some c →
      t.color.get c.1 c.2 = (Spec.placedBit t.dcw t.ecc i ^^ maskPred best c.1 c.2)) ∧
    Spec.HoldsFormat best.val t.color ∧
    (∀ x y, Spec.functionPlane.get x y = true → (x, y) ∉ Spec.primary ++ Spec.secondary →
      t.color.get x y = Spec.patternPlane.get x y)

/-- The whole result of GENQR is a function of `LEN`, of `IN[0..LEN-1]` and of the constant tables (R235, S8). -/
def Obligations.GenqrDependsOnTheTextOnly : Prop :=
  ∀ s s' : State, s.fatal = false → s'.fatal = false → s'.len = s.len → s'.tables = s.tables →
    (∀ j : Fin 17, j.val < s.len.toNat → s'.inp[j] = s.inp[j]) →
    ∃ t t', exec .genqr s = .next t ∧ exec .genqr s' = .next t' ∧
      t'.dcw = t.dcw ∧ t'.ecc = t.ecc ∧ t'.rem = t.rem ∧ t'.pen = t.pen ∧ t'.best = t.best ∧ t'.color = t.color ∧
      t'.func = t.func ∧ t'.stage = t.stage ∧ t'.err = t.err

/-- R242: from any state with `FATAL` = 0, GENQR and the five stage commands end in the same state when the input is valid;
when it is not, GENQR reports the input error and the script the StageOrder of its last command, both in stage 0 with no
output. -/
def Obligations.GenqrEqualsTheStagedScript : Prop :=
  ∀ s : State, s.fatal = false →
    (Spec.ValidInput s → ∃ t : State,
      Host.Core.run Sys2Proof.core 1 (Spec.next (scriptCommand .genqr) s) = .next t ∧
      Host.Core.run Sys2Proof.core 5 ({ s with pending := encodeScript ++ s.pending } : State) = .next t) ∧
    (¬ Spec.ValidInput s → ∃ g u : State,
      Host.Core.run Sys2Proof.core 1 (Spec.next (scriptCommand .genqr) s) = .next g ∧
      Host.Core.run Sys2Proof.core 5 ({ s with pending := encodeScript ++ s.pending } : State) = .next u ∧
      (g.err = some .inputTooLong ∨ g.err = some .invalidCharacter) ∧ g.errCmd = 0x1F000000 ∧
      u.err = some .stageOrder ∧ u.errInfo = 0 ∧ u.errCmd = 0x16000000 ∧
      g.stage = .idle ∧ u.stage = .idle ∧ g.output = none ∧ u.output = none)

/-- R243: a command runs only in its stages, otherwise StageOrder is raised and nothing else changes; without error it
leaves the stage of the table, and an error of its own leaves stage 0. -/
def Obligations.StageTable : Prop :=
  ∀ (i : Instr) (s t : State), i.wellFormed = true → s.fatal = false → exec i s = .next t →
    (¬ Spec.mayRun i s.stage → t = Spec.outOfOrder s (encode i)) ∧
    (Spec.mayRun i s.stage → t.err = none → t.stage = Spec.leaves i s.stage) ∧
    (Spec.mayRun i s.stage → t.err ≠ none → t.stage = .idle)

/-! ## Whole-machine rules -/

/-- No command writes `IN`, `LEN` or the tables (R14, R15, R23, R24), and none touches the host's port. -/
def Obligations.CommandsLeaveInputsAndTables : Prop :=
  ∀ (i : Instr) (s t : State), exec i s = .next t →
    t.inp = s.inp ∧ t.len = s.len ∧ t.tables = s.tables ∧
    t.pending = s.pending ∧ t.reads = s.reads ∧ t.draws = s.draws

/-- `RESULT` is written by the six field commands only, and not by one that fails (R13); `GEN` and `GENDEG` by RSGEN only
(R18). -/
def Obligations.ResultAndGeneratorWriters : Prop :=
  ∀ (i : Instr) (s t : State), exec i s = .next t →
    (t.result ≠ s.result → t.err = none ∧
      ((∃ a b, i = .gfadd a b ∨ i = .gfsub a b ∨ i = .gfmul a b ∨ i = .gfdiv a b) ∨
        (∃ a, i = .gfinv a) ∨ ∃ n, i = .gfpow n)) ∧
    (t.gen ≠ s.gen ∨ t.genDeg ≠ s.genDeg → ∃ n, i = .rsgen n)

/-- Which commands change which per-encode register when no error aborts the encode (R16, R17, R19 to R22). -/
def Obligations.PerEncodeRegisterWriters : Prop :=
  ∀ (i : Instr) (s t : State), exec i s = .next t →
    (t.err = none ∨ t.err = some .illegalCommand ∨ t.err = some .stageOrder) →
    i ≠ .bsenc → i ≠ .genqr →
    t.dcw = s.dcw ∧
    (i ≠ .rsecc → t.ecc = s.ecc) ∧
    (i ≠ .rschk → t.rem = s.rem) ∧
    (i ≠ .masksel → t.pen = s.pen ∧ t.best = s.best) ∧
    (i ≠ .mxbuild → t.func = s.func ∧
      (i ≠ .masksel → i ≠ .fmtwr → t.color = s.color))

/-! ## The invariant -/

/-- The state after reset meets the invariant (R35, R36). -/
def Obligations.ResetMeetsTheInvariant : Prop := State.reset.Inv

/-- Every step keeps the invariant, from every state that meets it (R35). -/
def Obligations.StepKeepsTheInvariant : Prop :=
  ∀ s t : State, s.Inv → step s = .next t → t.Inv

/-! ## The end of a run -/

/-- R298: a run has ended when the host's last action has been performed, each step performing the next one; it is then a
success, a reported failure or a fatal failure by `FATAL`, `ERR` and `STAGE`. No output exists after an error with code 1
or 2, in every state that meets the invariant. That the actions to come stand in a list, and the name for an end that is
none of the three, are the model's own (log entries 2 and 15). -/
def Obligations.RunEndClassification : Prop :=
  ∀ s : State,
    (s.runEnd = none ↔ s.pending ≠ []) ∧
    (∀ t, step s = .next t → t.pending = s.pending.tail) ∧
    (s.runEnd = some .success ↔ s.pending = [] ∧ s.fatal = false ∧ s.err = none ∧ s.stage = .done) ∧
    (s.runEnd = some .reportedFailure ↔ s.pending = [] ∧ s.fatal = false ∧ s.err ≠ none) ∧
    (s.runEnd = some .fatalFailure ↔ s.pending = [] ∧ s.fatal = true) ∧
    (s.runEnd = some .success → s.output = some s.color) ∧
    (s.Inv → s.err = some .inputTooLong ∨ s.err = some .invalidCharacter → s.output = none)
end

