-- ==== Sys2Proof/Laws/State.lean ====
section
/-! SUPPORT. One lemma per field for each named update of the state, so that no proof unfolds a record update. -/

namespace Sys2Proof.Machine

/-! `clear_encode_state()` (R33). -/

@[simp] theorem clearEncodeState_result (s : State) : (clearEncodeState s).result = s.result := rfl
@[simp] theorem clearEncodeState_inp (s : State) : (clearEncodeState s).inp = s.inp := rfl
@[simp] theorem clearEncodeState_len (s : State) : (clearEncodeState s).len = s.len := rfl
@[simp] theorem clearEncodeState_dcw (s : State) : (clearEncodeState s).dcw = Vector.replicate _ 0 := rfl
@[simp] theorem clearEncodeState_ecc (s : State) : (clearEncodeState s).ecc = Vector.replicate _ 0 := rfl
@[simp] theorem clearEncodeState_gen (s : State) : (clearEncodeState s).gen = s.gen := rfl
@[simp] theorem clearEncodeState_genDeg (s : State) : (clearEncodeState s).genDeg = s.genDeg := rfl
@[simp] theorem clearEncodeState_rem (s : State) : (clearEncodeState s).rem = Vector.replicate _ 0 := rfl
@[simp] theorem clearEncodeState_pen (s : State) : (clearEncodeState s).pen = Vector.replicate _ 0 := rfl
@[simp] theorem clearEncodeState_best (s : State) : (clearEncodeState s).best = 0 := rfl
@[simp] theorem clearEncodeState_color (s : State) : (clearEncodeState s).color = .clear := rfl
@[simp] theorem clearEncodeState_func (s : State) : (clearEncodeState s).func = .clear := rfl
@[simp] theorem clearEncodeState_tables (s : State) : (clearEncodeState s).tables = s.tables := rfl
@[simp] theorem clearEncodeState_stage (s : State) : (clearEncodeState s).stage = s.stage := rfl
@[simp] theorem clearEncodeState_err (s : State) : (clearEncodeState s).err = s.err := rfl
@[simp] theorem clearEncodeState_fatal (s : State) : (clearEncodeState s).fatal = s.fatal := rfl
@[simp] theorem clearEncodeState_errCmd (s : State) : (clearEncodeState s).errCmd = s.errCmd := rfl
@[simp] theorem clearEncodeState_errInfo (s : State) : (clearEncodeState s).errInfo = s.errInfo := rfl
@[simp] theorem clearEncodeState_pending (s : State) : (clearEncodeState s).pending = s.pending := rfl
@[simp] theorem clearEncodeState_reads (s : State) : (clearEncodeState s).reads = s.reads := rfl
@[simp] theorem clearEncodeState_draws (s : State) : (clearEncodeState s).draws = s.draws := rfl

/-! `abort_encode()` (R267). -/

@[simp] theorem abortEncode_result (s : State) : (abortEncode s).result = s.result := rfl
@[simp] theorem abortEncode_inp (s : State) : (abortEncode s).inp = s.inp := rfl
@[simp] theorem abortEncode_len (s : State) : (abortEncode s).len = s.len := rfl
@[simp] theorem abortEncode_dcw (s : State) : (abortEncode s).dcw = Vector.replicate _ 0 := rfl
@[simp] theorem abortEncode_ecc (s : State) : (abortEncode s).ecc = Vector.replicate _ 0 := rfl
@[simp] theorem abortEncode_gen (s : State) : (abortEncode s).gen = s.gen := rfl
@[simp] theorem abortEncode_genDeg (s : State) : (abortEncode s).genDeg = s.genDeg := rfl
@[simp] theorem abortEncode_rem (s : State) : (abortEncode s).rem = Vector.replicate _ 0 := rfl
@[simp] theorem abortEncode_pen (s : State) : (abortEncode s).pen = Vector.replicate _ 0 := rfl
@[simp] theorem abortEncode_best (s : State) : (abortEncode s).best = 0 := rfl
@[simp] theorem abortEncode_color (s : State) : (abortEncode s).color = .clear := rfl
@[simp] theorem abortEncode_func (s : State) : (abortEncode s).func = .clear := rfl
@[simp] theorem abortEncode_tables (s : State) : (abortEncode s).tables = s.tables := rfl
@[simp] theorem abortEncode_stage (s : State) : (abortEncode s).stage = .idle := rfl
@[simp] theorem abortEncode_err (s : State) : (abortEncode s).err = s.err := rfl
@[simp] theorem abortEncode_fatal (s : State) : (abortEncode s).fatal = s.fatal := rfl
@[simp] theorem abortEncode_errCmd (s : State) : (abortEncode s).errCmd = s.errCmd := rfl
@[simp] theorem abortEncode_errInfo (s : State) : (abortEncode s).errInfo = s.errInfo := rfl
@[simp] theorem abortEncode_pending (s : State) : (abortEncode s).pending = s.pending := rfl
@[simp] theorem abortEncode_reads (s : State) : (abortEncode s).reads = s.reads := rfl
@[simp] theorem abortEncode_draws (s : State) : (abortEncode s).draws = s.draws := rfl

/-! The record of an error (R266). -/

@[simp] theorem recordError_result (w : Word) (r : Raise) (s : State) : (recordError w r s).result = s.result := rfl
@[simp] theorem recordError_inp (w : Word) (r : Raise) (s : State) : (recordError w r s).inp = s.inp := rfl
@[simp] theorem recordError_len (w : Word) (r : Raise) (s : State) : (recordError w r s).len = s.len := rfl
@[simp] theorem recordError_dcw (w : Word) (r : Raise) (s : State) : (recordError w r s).dcw = s.dcw := rfl
@[simp] theorem recordError_ecc (w : Word) (r : Raise) (s : State) : (recordError w r s).ecc = s.ecc := rfl
@[simp] theorem recordError_gen (w : Word) (r : Raise) (s : State) : (recordError w r s).gen = s.gen := rfl
@[simp] theorem recordError_genDeg (w : Word) (r : Raise) (s : State) : (recordError w r s).genDeg = s.genDeg := rfl
@[simp] theorem recordError_rem (w : Word) (r : Raise) (s : State) : (recordError w r s).rem = s.rem := rfl
@[simp] theorem recordError_pen (w : Word) (r : Raise) (s : State) : (recordError w r s).pen = s.pen := rfl
@[simp] theorem recordError_best (w : Word) (r : Raise) (s : State) : (recordError w r s).best = s.best := rfl
@[simp] theorem recordError_color (w : Word) (r : Raise) (s : State) : (recordError w r s).color = s.color := rfl
@[simp] theorem recordError_func (w : Word) (r : Raise) (s : State) : (recordError w r s).func = s.func := rfl
@[simp] theorem recordError_tables (w : Word) (r : Raise) (s : State) : (recordError w r s).tables = s.tables := rfl
@[simp] theorem recordError_stage (w : Word) (r : Raise) (s : State) : (recordError w r s).stage = s.stage := rfl
@[simp] theorem recordError_err (w : Word) (r : Raise) (s : State) : (recordError w r s).err = some r.error := rfl
@[simp] theorem recordError_fatal (w : Word) (r : Raise) (s : State) : (recordError w r s).fatal = s.fatal := rfl
@[simp] theorem recordError_errCmd (w : Word) (r : Raise) (s : State) : (recordError w r s).errCmd = w := rfl
@[simp] theorem recordError_errInfo (w : Word) (r : Raise) (s : State) : (recordError w r s).errInfo = r.info := rfl
@[simp] theorem recordError_pending (w : Word) (r : Raise) (s : State) : (recordError w r s).pending = s.pending := rfl
@[simp] theorem recordError_reads (w : Word) (r : Raise) (s : State) : (recordError w r s).reads = s.reads := rfl
@[simp] theorem recordError_draws (w : Word) (r : Raise) (s : State) : (recordError w r s).draws = s.draws := rfl

/-! The end of a command without error (R73 step 5). -/

@[simp] theorem completed_result (s : State) : (completed s).result = s.result := rfl
@[simp] theorem completed_inp (s : State) : (completed s).inp = s.inp := rfl
@[simp] theorem completed_len (s : State) : (completed s).len = s.len := rfl
@[simp] theorem completed_dcw (s : State) : (completed s).dcw = s.dcw := rfl
@[simp] theorem completed_ecc (s : State) : (completed s).ecc = s.ecc := rfl
@[simp] theorem completed_gen (s : State) : (completed s).gen = s.gen := rfl
@[simp] theorem completed_genDeg (s : State) : (completed s).genDeg = s.genDeg := rfl
@[simp] theorem completed_rem (s : State) : (completed s).rem = s.rem := rfl
@[simp] theorem completed_pen (s : State) : (completed s).pen = s.pen := rfl
@[simp] theorem completed_best (s : State) : (completed s).best = s.best := rfl
@[simp] theorem completed_color (s : State) : (completed s).color = s.color := rfl
@[simp] theorem completed_func (s : State) : (completed s).func = s.func := rfl
@[simp] theorem completed_tables (s : State) : (completed s).tables = s.tables := rfl
@[simp] theorem completed_stage (s : State) : (completed s).stage = s.stage := rfl
@[simp] theorem completed_err (s : State) : (completed s).err = none := rfl
@[simp] theorem completed_fatal (s : State) : (completed s).fatal = s.fatal := rfl
@[simp] theorem completed_errCmd (s : State) : (completed s).errCmd = s.errCmd := rfl
@[simp] theorem completed_errInfo (s : State) : (completed s).errInfo = s.errInfo := rfl
@[simp] theorem completed_pending (s : State) : (completed s).pending = s.pending := rfl
@[simp] theorem completed_reads (s : State) : (completed s).reads = s.reads := rfl
@[simp] theorem completed_draws (s : State) : (completed s).draws = s.draws := rfl

/-! A host read (R41): the block's registers are unchanged. -/

@[simp] theorem hostRead_result (a : Nat) (s : State) : (hostRead a s).result = s.result := rfl
@[simp] theorem hostRead_inp (a : Nat) (s : State) : (hostRead a s).inp = s.inp := rfl
@[simp] theorem hostRead_len (a : Nat) (s : State) : (hostRead a s).len = s.len := rfl
@[simp] theorem hostRead_dcw (a : Nat) (s : State) : (hostRead a s).dcw = s.dcw := rfl
@[simp] theorem hostRead_ecc (a : Nat) (s : State) : (hostRead a s).ecc = s.ecc := rfl
@[simp] theorem hostRead_gen (a : Nat) (s : State) : (hostRead a s).gen = s.gen := rfl
@[simp] theorem hostRead_genDeg (a : Nat) (s : State) : (hostRead a s).genDeg = s.genDeg := rfl
@[simp] theorem hostRead_rem (a : Nat) (s : State) : (hostRead a s).rem = s.rem := rfl
@[simp] theorem hostRead_pen (a : Nat) (s : State) : (hostRead a s).pen = s.pen := rfl
@[simp] theorem hostRead_best (a : Nat) (s : State) : (hostRead a s).best = s.best := rfl
@[simp] theorem hostRead_color (a : Nat) (s : State) : (hostRead a s).color = s.color := rfl
@[simp] theorem hostRead_func (a : Nat) (s : State) : (hostRead a s).func = s.func := rfl
@[simp] theorem hostRead_tables (a : Nat) (s : State) : (hostRead a s).tables = s.tables := rfl
@[simp] theorem hostRead_stage (a : Nat) (s : State) : (hostRead a s).stage = s.stage := rfl
@[simp] theorem hostRead_err (a : Nat) (s : State) : (hostRead a s).err = s.err := rfl
@[simp] theorem hostRead_fatal (a : Nat) (s : State) : (hostRead a s).fatal = s.fatal := rfl
@[simp] theorem hostRead_errCmd (a : Nat) (s : State) : (hostRead a s).errCmd = s.errCmd := rfl
@[simp] theorem hostRead_errInfo (a : Nat) (s : State) : (hostRead a s).errInfo = s.errInfo := rfl
@[simp] theorem hostRead_pending (a : Nat) (s : State) : (hostRead a s).pending = s.pending := rfl
@[simp] theorem hostRead_reads (a : Nat) (s : State) : (hostRead a s).reads = s.reads ++ [s.wordAt (Config.logZeroDraw s.draws) (Loc.ofAddr a)] := rfl
@[simp] theorem hostRead_draws (a : Nat) (s : State) : (hostRead a s).draws = if Loc.ofAddr a = .logZero then s.draws + 1 else s.draws := rfl

/-! Reset (R291). -/

@[simp] theorem assertReset_result (s : State) : (assertReset s).result = State.reset.result := rfl
@[simp] theorem assertReset_inp (s : State) : (assertReset s).inp = State.reset.inp := rfl
@[simp] theorem assertReset_len (s : State) : (assertReset s).len = State.reset.len := rfl
@[simp] theorem assertReset_dcw (s : State) : (assertReset s).dcw = State.reset.dcw := rfl
@[simp] theorem assertReset_ecc (s : State) : (assertReset s).ecc = State.reset.ecc := rfl
@[simp] theorem assertReset_gen (s : State) : (assertReset s).gen = State.reset.gen := rfl
@[simp] theorem assertReset_genDeg (s : State) : (assertReset s).genDeg = State.reset.genDeg := rfl
@[simp] theorem assertReset_rem (s : State) : (assertReset s).rem = State.reset.rem := rfl
@[simp] theorem assertReset_pen (s : State) : (assertReset s).pen = State.reset.pen := rfl
@[simp] theorem assertReset_best (s : State) : (assertReset s).best = State.reset.best := rfl
@[simp] theorem assertReset_color (s : State) : (assertReset s).color = State.reset.color := rfl
@[simp] theorem assertReset_func (s : State) : (assertReset s).func = State.reset.func := rfl
@[simp] theorem assertReset_tables (s : State) : (assertReset s).tables = State.reset.tables := rfl
@[simp] theorem assertReset_stage (s : State) : (assertReset s).stage = State.reset.stage := rfl
@[simp] theorem assertReset_err (s : State) : (assertReset s).err = State.reset.err := rfl
@[simp] theorem assertReset_fatal (s : State) : (assertReset s).fatal = State.reset.fatal := rfl
@[simp] theorem assertReset_errCmd (s : State) : (assertReset s).errCmd = State.reset.errCmd := rfl
@[simp] theorem assertReset_errInfo (s : State) : (assertReset s).errInfo = State.reset.errInfo := rfl
@[simp] theorem assertReset_pending (s : State) : (assertReset s).pending = s.pending := rfl
@[simp] theorem assertReset_reads (s : State) : (assertReset s).reads = s.reads := rfl
@[simp] theorem assertReset_draws (s : State) : (assertReset s).draws = s.draws := rfl

end Sys2Proof.Machine
end

