-- ==== Sys2Proof/Laws/Ops.lean ====
section
/-! SUPPORT. What the shared operations can do, said once: error entry, running a command, a host action, a step. -/

namespace Sys2Proof.Machine

/-! Error entry (R266): the fields it records, and the fields no error touches. -/

@[simp] theorem raiseError_err (w : Word) (r : Raise) (s : State) : (raiseError w r s).err = some r.error := by
  rcases r with ⟨⟨⟩, _⟩ <;> rfl

@[simp] theorem raiseError_errCmd (w : Word) (r : Raise) (s : State) : (raiseError w r s).errCmd = w := by
  rcases r with ⟨⟨⟩, _⟩ <;> rfl

@[simp] theorem raiseError_errInfo (w : Word) (r : Raise) (s : State) : (raiseError w r s).errInfo = r.info := by
  rcases r with ⟨⟨⟩, _⟩ <;> rfl

@[simp] theorem raiseError_fatal (w : Word) (r : Raise) (s : State) :
    (raiseError w r s).fatal = (r.error.isFatal || s.fatal) := by
  rcases r with ⟨⟨⟩, _⟩ <;> rfl

@[simp] theorem raiseError_stage (w : Word) (r : Raise) (s : State) :
    (raiseError w r s).stage = if r.error.aborts then .idle else s.stage := by
  rcases r with ⟨⟨⟩, _⟩ <;> rfl

@[simp] theorem raiseError_result (w : Word) (r : Raise) (s : State) : (raiseError w r s).result = s.result := by
  rcases r with ⟨⟨⟩, _⟩ <;> rfl

@[simp] theorem raiseError_inp (w : Word) (r : Raise) (s : State) : (raiseError w r s).inp = s.inp := by
  rcases r with ⟨⟨⟩, _⟩ <;> rfl

@[simp] theorem raiseError_len (w : Word) (r : Raise) (s : State) : (raiseError w r s).len = s.len := by
  rcases r with ⟨⟨⟩, _⟩ <;> rfl

@[simp] theorem raiseError_gen (w : Word) (r : Raise) (s : State) : (raiseError w r s).gen = s.gen := by
  rcases r with ⟨⟨⟩, _⟩ <;> rfl

@[simp] theorem raiseError_genDeg (w : Word) (r : Raise) (s : State) : (raiseError w r s).genDeg = s.genDeg := by
  rcases r with ⟨⟨⟩, _⟩ <;> rfl

@[simp] theorem raiseError_tables (w : Word) (r : Raise) (s : State) : (raiseError w r s).tables = s.tables := by
  rcases r with ⟨⟨⟩, _⟩ <;> rfl

@[simp] theorem raiseError_pending (w : Word) (r : Raise) (s : State) : (raiseError w r s).pending = s.pending := by
  rcases r with ⟨⟨⟩, _⟩ <;> rfl

@[simp] theorem raiseError_reads (w : Word) (r : Raise) (s : State) : (raiseError w r s).reads = s.reads := by
  rcases r with ⟨⟨⟩, _⟩ <;> rfl

@[simp] theorem raiseError_draws (w : Word) (r : Raise) (s : State) : (raiseError w r s).draws = s.draws := by
  rcases r with ⟨⟨⟩, _⟩ <;> rfl

/-- A protocol error (codes 5 and 6) records itself and changes nothing else (R265). -/
theorem raiseError_protocol (w : Word) (r : Raise) (s : State) (h : r.error.aborts = false) :
    raiseError w r s = recordError w r s := by
  rcases r with ⟨⟨⟩, _⟩ <;> first | rfl | cases h

/-- An error with code 1 to 4 clears the per-encode state (R267). -/
theorem raiseError_aborts (w : Word) (r : Raise) (s : State) (h : r.error.aborts = true) :
    raiseError w r s = { abortEncode (recordError w r s) with fatal := r.error.isFatal || s.fatal } := by
  rcases r with ⟨⟨⟩, _⟩ <;> first | rfl | cases h

/-! Running a command. -/

theorem runCommand_fatal (i : Instr) (body : State → Except Raise State) (s : State) (h : s.fatal = true) :
    runCommand i body s = .next s := by
  simp [runCommand, h]

theorem runCommand_ok (i : Instr) (body : State → Except Raise State) (s t : State) (hf : s.fatal = false)
    (hn : need i s.stage = true) (hb : body s = .ok t) : runCommand i body s = .next (completed t) := by
  simp [runCommand, hf, hn, hb]

theorem runCommand_error (i : Instr) (body : State → Except Raise State) (s : State) (r : Raise) (hf : s.fatal = false)
    (hn : need i s.stage = true) (hb : body s = .error r) :
    runCommand i body s = .next (raiseError (encode i) r s) := by
  simp [runCommand, hf, hn, hb]

theorem runCommand_stageOrder (i : Instr) (body : State → Except Raise State) (s : State) (hf : s.fatal = false)
    (hn : need i s.stage = false) :
    runCommand i body s = .next (raiseError (encode i) ⟨.stageOrder, s.stage.code.setWidth 16⟩ s) := by
  simp [runCommand, hf, hn]

/-- Everything running a command can do: it is ignored in the fatal state, refused out of its stages, ended by an error
its pseudocode raised, or completed. -/
theorem runCommand_cases (i : Instr) (body : State → Except Raise State) (s : State) :
    (s.fatal = true ∧ runCommand i body s = .next s) ∨
    (s.fatal = false ∧ need i s.stage = false ∧
      runCommand i body s = .next (raiseError (encode i) ⟨.stageOrder, s.stage.code.setWidth 16⟩ s)) ∨
    (s.fatal = false ∧ need i s.stage = true ∧
      ∃ r, body s = .error r ∧ runCommand i body s = .next (raiseError (encode i) r s)) ∨
    (s.fatal = false ∧ need i s.stage = true ∧ ∃ t, body s = .ok t ∧ runCommand i body s = .next (completed t)) := by
  cases hf : s.fatal with
  | true => exact .inl ⟨rfl, runCommand_fatal i body s hf⟩
  | false =>
    cases hn : need i s.stage with
    | false => exact .inr (.inl ⟨rfl, rfl, runCommand_stageOrder i body s hf hn⟩)
    | true =>
      cases hb : body s with
      | error r => exact .inr (.inr (.inl ⟨rfl, rfl, r, rfl, runCommand_error i body s r hf hn hb⟩))
      | ok t => exact .inr (.inr (.inr ⟨rfl, rfl, t, rfl, runCommand_ok i body s t hf hn hb⟩))

/-! The parts of GENQR. -/

@[simp] theorem andThen_ok (s : State) (next : State → Except Raise State) : andThen (.ok s) next = next s := rfl

@[simp] theorem andThen_error (e : Raise) (next : State → Except Raise State) : andThen (.error e) next = .error e := rfl

end Sys2Proof.Machine
end

