-- ==== Sys2Proof/Laws/Plane.lean ====
section
/-! SUPPORT. Read-after-write laws of a plane: what `get` sees after `clear`, `set` and `tabulate`, and that a plane is
its cells. -/

namespace Sys2Proof.Machine

@[simp] theorem get_clear (x y : Nat) : Plane.clear.get x y = false := by
  simp only [Plane.get, Plane.clear]
  split <;> simp

/-- Bits of a row word after one cell is set. -/
theorem getLsbD_setBit (w : BitVec Config.side) (x : Nat) (b : Bool) (i : Nat) :
    (setBit w x b).getLsbD i = if i = x ∧ x < Config.side then b else w.getLsbD i := by
  by_cases hi : i < Config.side
  · by_cases hx : i = x
    · subst hx
      cases b <;> simp [setBit, hi]
    · cases b <;> simp [setBit, hx, BitVec.getLsbD_twoPow, Ne.symm hx]
      exact BitVec.lt_of_getLsbD
  · have hw : w.getLsbD i = false := BitVec.getLsbD_of_ge w i (by omega)
    have hs : (setBit w x b).getLsbD i = false := BitVec.getLsbD_of_ge _ i (by omega)
    rw [hs, hw]
    split
    · omega
    · rfl

/-- A write changes its own cell and no other. -/
theorem get_set (p : Plane) (x y : Nat) (b : Bool) (x' y' : Nat) :
    (p.set x y b).get x' y' = if x' = x ∧ y' = y ∧ x < Config.side ∧ y < Config.side then b else p.get x' y' := by
  by_cases hy : y < Config.side
  · by_cases hy' : y' < Config.side
    · by_cases e : y' = y
      · subst e
        simp [Plane.set, Plane.get, hy', getLsbD_setBit]
      · simp [Plane.set, Plane.get, hy, hy', e, Ne.symm e]
    · have e : y' ≠ y := by omega
      simp [Plane.get, hy, hy', e]
  · simp [Plane.set, hy]

theorem get_set_self (p : Plane) (x y : Nat) (b : Bool) (hx : x < Config.side) (hy : y < Config.side) :
    (p.set x y b).get x y = b := by
  simp [get_set, hx, hy]

theorem get_set_other (p : Plane) (x y : Nat) (b : Bool) (x' y' : Nat) (h : (x', y') ≠ (x, y)) :
    (p.set x y b).get x' y' = p.get x' y' := by
  rw [get_set, if_neg]
  rintro ⟨rfl, rfl, -⟩
  exact h rfl

@[simp] theorem get_tabulate (f : Nat → Nat → Bool) (x y : Nat) :
    (Plane.tabulate f).get x y = (decide (x < Config.side) && decide (y < Config.side) && f x y) := by
  by_cases hy : y < Config.side
  · by_cases hx : x < Config.side <;> simp [Plane.tabulate, Plane.get, hy, hx, BitVec.getLsbD_ofFnLE]
  · simp [Plane.get, hy]

/-- A plane is the cells it holds. -/
theorem plane_ext {p q : Plane} (h : ∀ x < Config.side, ∀ y < Config.side, p.get x y = q.get x y) : p = q := by
  cases p with | mk ps => cases q with | mk qs =>
  congr 1
  apply Vector.ext
  intro y hy
  apply BitVec.eq_of_getLsbD_eq
  intro x hx
  simpa [Plane.get, hy] using h x hx y hy

/-- The row word the host reads holds the cells of the row (R46). -/
theorem getLsbD_row (p : Plane) (x : Nat) (y : Fin Config.side) : p.rows[y].getLsbD x = p.get x y.val := by
  simp [Plane.get]

end Sys2Proof.Machine
end

