-- ==== Sys2Proof/Laws/Commands.lean ====
section
/-! SUPPORT. Every command is its pseudocode run by `runCommand`, so that a fact about all commands needs one fact about
each body. -/

namespace Sys2Proof.Machine

/-- The pseudocode of each command. -/
def commandBody : Instr → State → Except Raise State
  | .nop, s => .ok s
  | .gfadd a b, s => writeResult (.ok (gfAdd a b)) s
  | .gfsub a b, s => writeResult (.ok (gfSub a b)) s
  | .gfmul a b, s => writeResult (.ok (gfMul s.tables a b)) s
  | .gfdiv a b, s => writeResult (gfDiv s.tables a b) s
  | .gfinv a, s => writeResult (gfInv s.tables a) s
  | .gfpow n, s => writeResult (.ok (gfPow s.tables n.toNat)) s
  | .bsenc, s => bsencBody s
  | .rsgen n, s => rsgenBody n s
  | .rsecc, s => rseccBody s
  | .rschk, s => rschkBody s
  | .mxbuild, s => mxbuildBody s
  | .masksel, s => maskselBody s
  | .fmtwr, s => fmtwrBody s
  | .genqr, s => genqrBody s

/-- Running a command depends on its body at the state it is run in only. -/
theorem runCommand_congr (i : Instr) (body body' : State → Except Raise State) (s : State) (h : body s = body' s) :
    runCommand i body s = runCommand i body' s := by
  simp only [runCommand, h]

theorem exec_eq_runCommand (i : Instr) (s : State) : exec i s = runCommand i (commandBody i) s := by
  cases i <;> (simp only [exec, execNop, execGfadd, execGfsub, execGfmul, execGfdiv, execGfinv, execGfpow, execBsenc,
    execRsgen, execRsecc, execRschk, execMxbuild, execMasksel, execFmtwr, execGenqr]; apply runCommand_congr) <;>
    simp only [commandBody]

/-- Everything executing a command can do. -/
theorem exec_cases (i : Instr) (s : State) :
    (s.fatal = true ∧ exec i s = .next s) ∨
    (s.fatal = false ∧ need i s.stage = false ∧
      exec i s = .next (raiseError (encode i) ⟨.stageOrder, s.stage.code.setWidth 16⟩ s)) ∨
    (s.fatal = false ∧ need i s.stage = true ∧
      ∃ r, commandBody i s = .error r ∧ exec i s = .next (raiseError (encode i) r s)) ∨
    (s.fatal = false ∧ need i s.stage = true ∧
      ∃ t, commandBody i s = .ok t ∧ exec i s = .next (completed t)) := by
  rw [exec_eq_runCommand]
  exact runCommand_cases i (commandBody i) s

/-- The function patterns leave 208 non-function modules, whatever the data. -/
theorem countZero_functionPatterns : (functionPatterns darkModule).func.countZero = Config.nBits := by decide +kernel

/-- MXBUILD's pseudocode always completes with QR1L's dark module. -/
theorem mxbuildBody_eq (s : State) :
    mxbuildBody s = .ok { s with
      color := placeBits (functionPatterns darkModule).func scanOrder s.placedSequence (functionPatterns darkModule).color
      func := (functionPatterns darkModule).func
      stage := .placed } := by
  simp only [mxbuildBody, mxbuildWith, countZero_functionPatterns]
  rfl

/-! Inversion of the bodies that can raise an error. -/

theorem writeResult_cases (v : Except Raise Byte) (s : State) :
    (∃ r, v = .ok r ∧ writeResult v s = .ok { s with result := r }) ∨ (∃ e, v = .error e ∧ writeResult v s = .error e) := by
  cases v with
  | ok r => exact .inl ⟨r, rfl, rfl⟩
  | error e => exact .inr ⟨e, rfl, rfl⟩

theorem rsgenBody_ok (n : Byte) (s : State) (h : n.toNat ≤ 7) :
    rsgenBody n s = .ok { s with gen := registers 8 (rsGen s.tables n.toNat), genDeg := n.setWidth 4 } := by
  simp [rsgenBody, h]

theorem rsgenBody_error (n : Byte) (s : State) (h : ¬ n.toNat ≤ 7) : rsgenBody n s = .error ⟨.illegalCommand, 0⟩ := by
  simp [rsgenBody, h]

/-- What BSENC's pseudocode can do: report the length, report the lowest bad code unit, or write `DCW` (R130). -/
theorem bsencBody_cases (s : State) :
    (17 < s.len.toNat ∧ bsencBody s = .error ⟨.inputTooLong, s.len.setWidth 16⟩) ∨
    (s.len.toNat ≤ 17 ∧ ∃ i, firstInvalid s.inputUnits = some i ∧
      bsencBody s = .error ⟨.invalidCharacter, BitVec.ofNat 16 i⟩) ∨
    (s.len.toNat ≤ 17 ∧ firstInvalid s.inputUnits = none ∧
      bsencBody s = .ok { clearEncodeState s with
        dcw := registers Config.nData (codewords (bsEncode (inputBytes s.inputUnits)))
        stage := .data }) := by
  by_cases hl : 17 < s.len.toNat
  · exact .inl ⟨hl, by simp [bsencBody, hl]⟩
  · cases hi : firstInvalid s.inputUnits with
    | some i => exact .inr (.inl ⟨by omega, i, rfl, by simp [bsencBody, hl, hi]⟩)
    | none => exact .inr (.inr ⟨by omega, rfl, by simp [bsencBody, hl, hi]⟩)

/-- GENQR is BSENC's pseudocode followed by four parts that raise nothing (R241). -/
theorem genqrBody_error (s : State) (r : Raise) (h : bsencBody s = .error r) : genqrBody s = .error r := by
  simp [genqrBody, h]

end Sys2Proof.Machine
end

