-- ==== Sys2Proof/Laws/PerInstr.lean ====
section
/-! SUPPORT. Facts about the syntax of commands, one lemma per constructor. -/

namespace Sys2Proof.Laws.EncodeSelectsRow

/-- The word of a well-formed command selects the command's own row of the opcode map (R66). -/
def Statement (i : Instr) : Prop := i.wellFormed = true → selectsRow (encode i) i.row = true

/-- Masking off the operands of format AB leaves the opcode. -/
theorem masked_AB (op a b : Byte) : encodeAB op a b &&& 0xFFFF0000#32 = encodeAB op 0 0 := by
  apply BitVec.eq_of_getLsbD_eq
  intro i hi
  simp only [encodeAB, BitVec.getLsbD_and, BitVec.getLsbD_append]
  interval_cases i <;> simp

/-- Masking off the operand of format A leaves the opcode. -/
theorem masked_A (op a : Byte) : encodeA op a &&& 0xFFFFFF00#32 = encodeA op 0 := by
  apply BitVec.eq_of_getLsbD_eq
  intro i hi
  simp only [encodeA, BitVec.getLsbD_and, BitVec.getLsbD_append]
  interval_cases i <;> simp

/-- Masking off the operand of format N leaves the opcode. -/
theorem masked_N (op : Byte) (n : BitVec 24) : encodeN op n &&& 0xFF000000#32 = encodeN op 0 := by
  apply BitVec.eq_of_getLsbD_eq
  intro i hi
  simp only [encodeN, BitVec.getLsbD_and, BitVec.getLsbD_append]
  interval_cases i <;> simp

theorem nop : Statement .nop := fun _ => by decide
theorem gfadd (a b : Byte) : Statement (.gfadd a b) := fun _ => by
  simp [selectsRow, encode, Instr.row, masked_AB]; decide
theorem gfsub (a b : Byte) : Statement (.gfsub a b) := fun _ => by
  simp [selectsRow, encode, Instr.row, masked_AB]; decide
theorem gfmul (a b : Byte) : Statement (.gfmul a b) := fun _ => by
  simp [selectsRow, encode, Instr.row, masked_AB]; decide
theorem gfdiv (a b : Byte) : Statement (.gfdiv a b) := fun _ => by
  simp [selectsRow, encode, Instr.row, masked_AB]; decide
theorem gfinv (a : Byte) : Statement (.gfinv a) := fun _ => by
  simp [selectsRow, encode, Instr.row, masked_A]; decide
theorem gfpow (n : BitVec Config.nPow) : Statement (.gfpow n) := fun _ => by
  simp [selectsRow, encode, Instr.row, masked_N]; decide
theorem bsenc : Statement .bsenc := fun _ => by decide
theorem rsgen (n : Byte) : Statement (.rsgen n) := fun h => by
  have hn : n.toNat ≤ 7 := by simpa [Instr.wellFormed] using h
  have hall : ∀ k : Fin 8, selectsRow (encodeA 0x11 (BitVec.ofNat 8 k.val)) (0x11000000, 0xFFFFFFF8) = true := by decide
  have := hall ⟨n.toNat, by omega⟩
  simpa [encode, Instr.row] using this
theorem rsecc : Statement .rsecc := fun _ => by decide
theorem rschk : Statement .rschk := fun _ => by decide
theorem mxbuild : Statement .mxbuild := fun _ => by decide
theorem masksel : Statement .masksel := fun _ => by decide
theorem fmtwr : Statement .fmtwr := fun _ => by decide
theorem genqr : Statement .genqr := fun _ => by decide

end Sys2Proof.Laws.EncodeSelectsRow
end

