-- ==== Sys2Proof/Laws/Sequences.lean ====
section
/-! SUPPORT. The lengths of the sequences the units pass to each other, and what a register file holds. -/

namespace Sys2Proof.Machine

@[simp] theorem length_bits8 (v : Byte) : (bits8 v).length = 8 := rfl

theorem length_flatMap_bits8 (l : List Byte) : (l.flatMap bits8).length = 8 * l.length := by
  induction l with
  | nil => rfl
  | cons v l ih => simp [ih]; omega

/-- The group of eight bits of a codeword has the codeword's value (R8). -/
theorem codewords_bits8_append (v : Byte) (rest : List Bool) : codewords (bits8 v ++ rest) = v :: codewords rest := by
  have h : ∀ v : Byte, codeword (v.getLsbD 7) (v.getLsbD 6) (v.getLsbD 5) (v.getLsbD 4) (v.getLsbD 3) (v.getLsbD 2)
      (v.getLsbD 1) (v.getLsbD 0) = v := by decide +kernel
  exact congrArg (· :: codewords rest) (h v)

/-- `codewords` undoes `bits8` on a sequence of codewords (R136). -/
theorem codewords_flatMap_bits8 (l : List Byte) : codewords (l.flatMap bits8) = l := by
  induction l with
  | nil => rfl
  | cons v l ih => rw [List.flatMap_cons, codewords_bits8_append, ih]

@[simp] theorem length_dataCodewords (s : State) : s.dataCodewords.length = 19 := by simp [State.dataCodewords]

@[simp] theorem length_allCodewords (s : State) : s.allCodewords.length = 26 := by
  simp [State.allCodewords, Config.nData, Config.nEcc]

@[simp] theorem length_placedSequence (s : State) : s.placedSequence.length = 208 := by
  simp only [State.placedSequence, length_flatMap_bits8, length_allCodewords]

/-- A register file holds the sequence it was written from. -/
theorem toList_registers (n : Nat) (l : List Byte) (h : l.length = n) : (registers n l).toList = l := by
  apply List.ext_getElem (by simp [h])
  intro i h1 h2
  simp [registers, h2]

@[simp] theorem length_xorInto (m v : List Byte) : (xorInto m v).length = m.length := by
  induction m generalizing v with
  | nil => cases v <;> rfl
  | cons c m ih => cases v <;> simp [xorInto, ih]

@[simp] theorem length_divideStep (t : GfTables) (g m : List Byte) : (divideStep t g m).length = m.length := by
  cases m with
  | nil => rfl
  | cons c rest => simp only [divideStep]; split <;> simp

@[simp] theorem length_rsDivide (t : GfTables) (g : List Byte) (steps : Nat) (m : List Byte) :
    (rsDivide t g steps m).length = m.length := by
  induction steps generalizing m with
  | zero => rfl
  | succ steps ih =>
    have h := length_divideStep t g m
    simp only [rsDivide]
    split
    · next e => simpa [e] using h
    · next e => simp [e] at h; simp [ih, h]

@[simp] theorem length_rsEcc (t : GfTables) (d : List Byte) (h : d.length = 19) : (rsEcc t d).length = 7 := by
  simp [rsEcc, h]

@[simp] theorem length_rsRemainder (t : GfTables) (m : List Byte) (h : m.length = 26) : (rsRemainder t m).length = 7 := by
  simp [rsRemainder, h, Config.nData]

@[simp] theorem length_rsGen (t : GfTables) (n : Nat) : (rsGen t n).length = n + 1 := by
  induction n with
  | zero => rfl
  | succ n ih => simp [rsGen, timesLinear, ih]

end Sys2Proof.Machine
end

