-- ==== Sys2Proof/Laws/Tables.lean ====
section
/-! SUPPORT. The ROM holds what the construction of R101 writes, and the small facts about reading the tables. -/

namespace Sys2Proof.Machine

/-- The exponent ROM is the construction's `EXP` (R101, R291). -/
theorem expRom_eq_constructed : expRom = constructedExp := by decide +kernel

/-- The logarithm ROM is the construction's `LOG[1..255]` (R101, R291). -/
theorem logRom_eq_constructed : logRom = constructedLog := by decide +kernel

/-- Reading the exponent table has period 255 (R103). -/
theorem gfExp_mod (t : GfTables) (i : Nat) : t.gfExp (i % 255) = t.gfExp i := by
  simp [GfTables.gfExp]

theorem gfExp_add_255 (t : GfTables) (i : Nat) : t.gfExp (i + 255) = t.gfExp i := by
  simp [GfTables.gfExp]

end Sys2Proof.Machine
end

