-- ==== Sys2Proof/Tests/Slice0.lean ====
section
/-! SUPPORT. Tests of the model. Every expected value is transcribed from the spec: the encodings of 30_encoding.md and
the vectors of 95_test_vectors.md, whose ids stand beside the tests. The witnesses at the end meet the hypotheses of the
obligations, one theorem each. -/

namespace Sys2Proof.Tests

-- One declaration after the other: the kernel evaluations below are then not held in memory side by side.
set_option Elab.async false

open Sys2Proof Sys2Proof.Machine

/-! ## Helpers -/

/-- The state a step ends in; `reset` with `FATAL` set stands for a stop, which no test expects. -/
def after : Host.Outcome State Fault Refusal → State
  | .next t => t
  | .fault _ | .refused _ => { State.reset with fatal := true, errCmd := 0xDEADDEAD }

/-- The state after reset with a text loaded (R72). -/
def loaded (units : List (BitVec 16)) : State :=
  { State.reset with len := BitVec.ofNat 8 units.length, inp := Vector.ofFn fun i => units.getD i.val 0 }

/-- The text of the vectors B2, E6 and V1. -/
def textA : State := loaded [0x41]

/-- `DCW` of "A" (B2). -/
def dcwA : Vector Byte 19 :=
  #v[0x40, 0x14, 0x10, 0xEC, 0x11, 0xEC, 0x11, 0xEC, 0x11, 0xEC, 0x11, 0xEC, 0x11, 0xEC, 0x11, 0xEC, 0x11, 0xEC, 0x11]

/-- `ECC` of "A" (E6). -/
def eccA : Vector Byte 7 := #v[0x52, 0x4B, 0xB5, 0x3B, 0xAF, 0x8D, 0xF1]

/-- "A" in stage 1 (P2 line 4). -/
def dataA : State := { textA with dcw := dcwA, stage := .data }

/-- "A" in stage 2 (P2 line 5). -/
def codedA : State := { dataA with ecc := eccA, stage := .ecc }

/-- The grid of "A" in stage 3 (M3). -/
def gridPlaced : Plane :=
  ⟨#v[0x1FCE7F, 0x104441, 0x174E5D, 0x17405D, 0x17405D, 0x105A41, 0x1FD57F, 0x001000, 0x001A40, 0x06EBA7, 0x04436F,
      0x0EE9B0, 0x000479, 0x000300, 0x0BB87F, 0x091441, 0x03BE5D, 0x06EC5D, 0x04465D, 0x06EA41, 0x08027F]⟩

/-- The grid of "A" in stage 4 (V1). -/
def gridMasked : Plane :=
  ⟨#v[0x1FDA7F, 0x104E41, 0x175A5D, 0x174A5D, 0x17545D, 0x105041, 0x1FD57F, 0x001A00, 0x000E40, 0x0C410D, 0x11167A,
      0x04431A, 0x15516C, 0x0AA900, 0x1EEC7F, 0x03BE41, 0x16EA5D, 0x0C465D, 0x11125D, 0x0C4041, 0x1D567F]⟩

/-- The final grid of "A" (V1, P2). -/
def gridDone : Plane :=
  ⟨#v[0x1FDA7F, 0x104E41, 0x175B5D, 0x174A5D, 0x17545D, 0x105041, 0x1FD57F, 0x001B00, 0x046FF7, 0x0C410D, 0x11167A,
      0x04431A, 0x15516C, 0x0AA900, 0x1EED7F, 0x03BF41, 0x16EB5D, 0x0C465D, 0x11135D, 0x0C4141, 0x1D577F]⟩

/-- "A" in stage 3 (P2 line 7). -/
def placedA : State := { codedA with color := gridPlaced, func := Spec.functionPlane, stage := .placed }

/-- "A" in stage 4 (P2 line 9). -/
def maskedA : State :=
  { placedA with pen := #v[331, 402, 399, 384, 381, 418, 447, 389], best := 0, color := gridMasked, stage := .masked }

/-- "A" in stage 5 (P2 line 12). -/
def doneA : State := { maskedA with color := gridDone, stage := .done }

/-- The fatal state of X21. -/
def fatalState : State := { State.reset with err := some .divideByZero, errCmd := 0x04000000, fatal := true }

/-- A write of a word to an address, as the host's next action. -/
def wr (a : Nat) (v : Word) (s : State) : State := after (step (Spec.next (.write a 4 v) s))

/-- The word a read of an address returns. -/
def rd (a : Nat) (s : State) : Option Word := (after (step (Spec.next (.read a 4) s))).reads.getLast?

/-! ## Well-formedness and decoding -/

/-- The one check of WellFormed: RSGEN's degree (R62, R67). -/
theorem test_wellFormed_refuses_degree_8 : (Instr.rsgen 8).wellFormed = false ∧ (Instr.rsgen 255).wellFormed = false := by
  decide

theorem test_wellFormed_accepts_degree_7 : (Instr.rsgen 7).wellFormed = true ∧ (Instr.rsgen 0).wellFormed = true := by
  decide

/-- Format Z, all eight commands, written out from R61 and R66. -/
theorem test_decode_format_Z :
    decode 0b00000000_000000000000000000000000#32 = .ok .nop ∧ decode 0b00010000_000000000000000000000000#32 = .ok .bsenc ∧
    decode 0b00010010_000000000000000000000000#32 = .ok .rsecc ∧ decode 0b00010011_000000000000000000000000#32 = .ok .rschk ∧
    decode 0b00010100_000000000000000000000000#32 = .ok .mxbuild ∧
    decode 0b00010101_000000000000000000000000#32 = .ok .masksel ∧
    decode 0b00010110_000000000000000000000000#32 = .ok .fmtwr ∧ decode 0b00011111_000000000000000000000000#32 = .ok .genqr := by
  decide

/-- Format AB: `a` in bits 15:8, `b` in bits 7:0 (R63). The words are those of R110 to R113. -/
theorem test_decode_format_AB :
    decode 0b00000001_00000000_01010011_11001010#32 = .ok (.gfadd 0x53 0xCA) ∧
    decode 0b00000010_00000000_01010011_11001010#32 = .ok (.gfsub 0x53 0xCA) ∧
    decode 0b00000011_00000000_01010011_11001010#32 = .ok (.gfmul 0x53 0xCA) ∧
    decode 0b00000100_00000000_01010011_11001010#32 = .ok (.gfdiv 0x53 0xCA) := by decide

/-- Format A (R62) and format N (R64). The words are those of R114, R155 and R115. -/
theorem test_decode_formats_A_and_N :
    decode 0b00000101_0000000000000000_01010011#32 = .ok (.gfinv 0x53) ∧
    decode 0b00010001_0000000000000000_00000111#32 = .ok (.rsgen 7) ∧
    decode 0b00000110_000000000000001111101000#32 = .ok (.gfpow 1000) ∧
    decode 0x06FFFFFF = .ok (.gfpow 16777215) := by decide

/-- Illegal words, by reason (X13 to X18). -/
theorem test_decode_illegal :
    decode 0x11000008 = .error .degreeTooLarge ∧ decode 0x07000000 = .error .unknownOpcode ∧
    decode 0x10000001 = .error .reservedBitsSet ∧ decode 0x03010203 = .error .reservedBitsSet ∧
    decode 0x05000100 = .error .reservedBitsSet ∧ decode 0xFFFFFFFF = .error .unknownOpcode := by decide

/-- The words of R70 (P1). -/
theorem test_encode :
    encode (.gfmul 0x53 0xCA) = 0x030053CA ∧ encode (.gfinv 0x8F) = 0x0500008F ∧ encode (.gfpow 280) = 0x06000118 ∧
    encode (.rsgen 7) = 0x11000007 ∧ encode .genqr = 0x1F000000 := by decide

/-! ## The window (20_memory.md) -/

/-- The register-window vectors: reset reads, dropped high bits. -/
theorem test_window_reads :
    rd 0x001 .reset = some 0x80 ∧ rd 0x100 .reset = some 0x01 ∧ rd 0x1FE .reset = some 0x8E ∧ rd 0x1FF .reset = some 0 ∧
    rd 0x201 .reset = some 0 ∧ rd 0x2FF .reset = some 0xAF ∧ rd 0x3FF .reset = some 0 ∧
    (wr 0x003 0x1FF .reset).len = 0xFF ∧ (wr 0x013 0x12345 .reset).inp[3] = 0x2345 := by decide +kernel

/-- Read-only and reserved addresses ignore writes. -/
theorem test_window_writes_ignored :
    wr 0x002 5 .reset = .reset ∧ wr 0x008 1 .reset = .reset ∧ wr 0x001 0 .reset = .reset ∧ wr 0x021 1 .reset = .reset := by
  decide +kernel

/-- Reset leaves the fatal state (after X23). -/
theorem test_reset_leaves_fatal : after (step (Spec.next .reset fatalState)) = .reset := by decide +kernel

/-! ## The field commands (G1 to G5, X20, X21) -/

theorem test_gfadd : (after (exec (.gfadd 0x53 0xCA) .reset)).result = 0x99 := by decide +kernel
theorem test_gfsub : (after (exec (.gfsub 0x99 0xCA) .reset)).result = 0x53 := by decide +kernel
theorem test_gfmul : (after (exec (.gfmul 0x53 0xCA) .reset)).result = 0x8F := by decide +kernel
theorem test_gfmul_wraps : (after (exec (.gfmul 0x8E 0x02) .reset)).result = 0x01 := by decide +kernel
theorem test_gfdiv : (after (exec (.gfdiv 0x53 0xCA) .reset)).result = 0x6D := by decide +kernel
/-- X20, with the `RESULT` of an earlier command. -/
theorem test_gfdiv_by_zero :
    (after (exec (.gfdiv 0x53 0) { State.reset with result := 0x8F })).statusWord = 0x390 ∧
    (after (exec (.gfdiv 0x53 0) { State.reset with result := 0x8F })).result = 0x8F ∧
    (after (exec (.gfdiv 0x53 0) { State.reset with result := 0x8F })).errCmd = 0x04005300 := by decide +kernel
theorem test_gfinv_one : (after (exec (.gfinv 1) .reset)).result = 1 := by decide +kernel
/-- X22: the finished grid and the codewords are gone. -/
theorem test_gfinv_zero_clears_the_grid :
    after (exec (.gfinv 0) doneA) =
      { textA with err := some .divideByZero, errCmd := 0x05000000, fatal := true } := by decide +kernel
theorem test_gfpow : (after (exec (.gfpow 1000) .reset)).result = 0xEB := by decide +kernel
theorem test_gfpow_all_ones : (after (exec (.gfpow 16777215) .reset)).result = 1 := by decide +kernel

/-! ## The pipeline commands -/

/-- X19. -/
theorem test_nop :
    after (exec .nop { State.reset with err := some .illegalCommand, errCmd := 0x07000000 }) =
      { State.reset with errCmd := 0x07000000 } := by decide +kernel

/-- B2. -/
theorem test_bsenc : after (exec .bsenc textA) = dataA := by decide +kernel

/-- X4, on BSENC: the lowest offending index is 2. -/
theorem test_bsenc_invalid :
    after (exec .bsenc (loaded [0x41, 0x42, 0x3A9, 0x44, 0xFFFF])) =
      { loaded [0x41, 0x42, 0x3A9, 0x44, 0xFFFF] with
        err := some .invalidCharacter, errCmd := 0x10000000, errInfo := 2 } := by decide +kernel

theorem test_rsgen_2 :
    (after (exec (.rsgen 2) .reset)).gen = #v[0x01, 0x03, 0x02, 0, 0, 0, 0, 0] ∧
    (after (exec (.rsgen 2) .reset)).genDeg = 2 := by decide +kernel
theorem test_rsgen_7 :
    (after (exec (.rsgen 7) .reset)).gen = #v[0x01, 0x7F, 0x7A, 0x9A, 0xA4, 0x0B, 0x44, 0x75] := by decide +kernel

/-- E6. -/
theorem test_rsecc : after (exec .rsecc dataA) = codedA := by decide +kernel
/-- X8. -/
theorem test_rsecc_out_of_order : (after (exec .rsecc .reset)).statusWord = 0x680 := by decide +kernel

/-- `rs_divide` on E6 with 80 XORed into index 25. -/
theorem test_rschk_sees_a_wrong_codeword :
    (after (exec .rschk { codedA with ecc := #v[0x52, 0x4B, 0xB5, 0x3B, 0xAF, 0x8D, 0x71] })).rem =
      #v[0, 0, 0, 0, 0, 0, 0x80] := by decide +kernel

/-- M1 and M3. -/
theorem test_mxbuild : after (exec .mxbuild codedA) = placedA := by decide +kernel
/-- X9. -/
theorem test_mxbuild_out_of_order : (after (exec .mxbuild dataA)).statusWord = 0x681 := by decide +kernel

/-- V1: the eight totals, the winner, the masked grid. -/
theorem test_masksel : after (exec .masksel placedA) = maskedA := by decide +kernel
/-- X12. -/
theorem test_masksel_out_of_order :
    after (exec .masksel doneA) =
      { doneA with err := some .stageOrder, errCmd := 0x15000000, errInfo := 5 } := by decide +kernel

theorem test_fmtwr : after (exec .fmtwr maskedA) = doneA := by decide +kernel
/-- F1, row 2. -/
theorem test_fmtwr_second_row :
    (after (exec .fmtwr { maskedA with best := 2 })).color.rows[8] &&& 0x1FE1BF = 0x0AA19F := by decide +kernel

/-- The data codewords GENQR leaves are those of BSENC, and it ends in stage 5 (P3). -/
theorem test_genqr : (after (exec .genqr textA)).dcw = dcwA ∧ (after (exec .genqr textA)).statusWord = 0x8D := by
  decide +kernel
/-- X7: the old grid is gone. -/
theorem test_genqr_too_long :
    after (exec .genqr { doneA with len := 18 }) =
      { textA with len := 18, err := some .inputTooLong, errCmd := 0x1F000000, errInfo := 18 } := by decide +kernel

/-- Predicates at single cells (Q5). -/
theorem test_predicates :
    ((List.finRange 8).map fun k => maskPred k 20 19) = [false, false, false, true, false, false, true, false] ∧
    ((List.finRange 8).map fun k => maskPred k 11 4) = [false, true, false, true, false, false, true, false] := by decide

/-- `line_penalty` of lines with runs of 4, of 5, and of 5 at the end (Q1). -/
theorem test_line_penalty :
    linePenalty (List.replicate 4 false ++ [true]) = 0 ∧ linePenalty (List.replicate 5 false ++ [true]) = 3 ∧
    linePenalty (true :: List.replicate 5 false) = 3 ∧ linePenalty (List.replicate 21 true) = 19 := by decide

/-! ## Witnesses: the hypotheses of each obligation are met together, clause by clause -/

/-- The finished "A" meets the invariant. -/
theorem doneA_inv : doneA.Inv where
  tables_constant := rfl
  idle_cleared := by decide +kernel
  mode_indicator := by decide +kernel
  ecc_of_data := by decide +kernel
  function_flags := by decide +kernel
  best_least := by decide +kernel
  pen_bound := by decide +kernel
  rem_zero := rfl
  gen_degree := by decide +kernel
  fatal_state := by decide +kernel
  aborted_idle := by intro e; cases e <;> decide +kernel

/-- The fatal state meets the invariant. -/
theorem fatalState_inv : fatalState.Inv where
  tables_constant := rfl
  idle_cleared := by decide +kernel
  mode_indicator := by decide +kernel
  ecc_of_data := by decide +kernel
  function_flags := by decide +kernel
  best_least := by decide +kernel
  pen_bound := by decide +kernel
  rem_zero := rfl
  gen_degree := by decide +kernel
  fatal_state := by decide +kernel
  aborted_idle := by intro e; cases e <;> decide +kernel

theorem witness_DecodeOfEncode :
    (Instr.gfpow 0xFFFFFF).wellFormed = true ∧ (Instr.rsgen 7).wellFormed = true ∧
    (Instr.gfdiv 255 0).wellFormed = true := by decide

theorem witness_EncodeOfDecode : decode 0x11000007 = .ok (.rsgen 7) := by decide

theorem witness_DecodeFollowsTheOpcodeMap :
    Spec.opcodeMap[8]? = some (0x11000000, 0xFFFFFFF8) ∧ 0x11000007#32 &&& 0xFFFFFFF8 = 0x11000000 ∧
    0x11000008#32 &&& 0xFFFFFFF8 ≠ 0x11000000 ∧ Spec.opcodeMap[14]? = some (0x1F000000, 0xFFFFFFFF) := by decide

/-- One word for each clause of R67, the legal words next to them (X13 to X18). -/
theorem witness_IllegalWordRaisesIllegalCommand :
    Spec.Illegal 0x11000008 ∧ Spec.Illegal 0x07000000 ∧ Spec.Illegal 0x10000001 ∧ Spec.Illegal 0x03010203 ∧
    Spec.Illegal 0x05000100 ∧ ¬ Spec.Illegal 0x11000007 ∧ ¬ Spec.Illegal 0x0300FFFF ∧ State.reset.fatal = false := by
  refine ⟨?_, ?_, ?_, ?_, ?_, ?_, ?_, rfl⟩ <;> unfold Spec.Illegal <;> decide

theorem witness_StepRunsTheDecodedCommand : decode 0x030053CA = .ok (.gfmul 0x53 0xCA) := by decide

/-- The boundary addresses of the clauses, in states with `FATAL` 0 and 1. -/
theorem witness_HostWriteFollowsTheMap :
    (0x000 < 0x400 ∧ 0x003 < 0x400 ∧ 0x00F < 0x010 ∧ 0x010 ≤ 0x020 ∧ 0x020 < 0x021 ∧ 0x3FF < 0x400) ∧
    (wr 0x010 0x41 .reset).inp[0] = 0x41 ∧ (wr 0x020 0x41 .reset).inp[16] = 0x41 ∧ wr 0x00F 1 .reset = .reset ∧
    wr 0x021 1 .reset = .reset ∧ wr 0x003 7 fatalState = fatalState ∧ wr 0x000 0x00000000 fatalState = fatalState := by
  decide +kernel

/-- The first and last word of each register file, and the reserved word after it (R43), on the finished "A". -/
theorem witness_HostReadReturnsTheMappedWord :
    ([0x000, 0x007, 0x008, 0x010, 0x020, 0x021, 0x030, 0x042, 0x043, 0x048, 0x04E, 0x04F, 0x050, 0x057, 0x058, 0x05E,
        0x05F, 0x060, 0x067, 0x068, 0x080, 0x094, 0x095, 0x0A0, 0x0B4, 0x0B5, 0x300].map fun a => rd a doneA) =
      [0, 0, 0, 0x41, 0, 0, 0x40, 0x11, 0, 0x52, 0xF1, 0, 0, 0, 0, 0, 0, 331, 389, 0, 0x1FDA7F, 0x1D577F, 0, 0x1FE1FF,
        0x0001FF, 0, 0].map some := by decide +kernel

theorem witness_OnlyMeaninglessAccessesStop :
    (Spec.next (.read 0x001 2) .reset).pending = .read 0x001 2 :: [] ∧
    (Spec.next (.write 0x400 4 0) .reset).pending = .write 0x400 4 0 :: [] := ⟨rfl, rfl⟩

theorem witness_GridReadout : doneA.Inv ∧ doneA.stage = .done := ⟨doneA_inv, rfl⟩

theorem witness_LoadSetsTheInput : State.reset.fatal = false := rfl

/-- LOADB of 18 code units writes `LEN` and the first 17 `IN` registers (R72). -/
theorem test_load_18_units : (loadUnits (List.replicate 18 0x41)).length = 18 := by decide

theorem witness_ResetLeavesTheStatedState :
    (0x001 < 0x400 ∧ 0x0FF < 0x100 ∧ 0x1FE ≤ 0x1FE ∧ 0x1FF < 0x200 ∧ 0x2FF ≤ 0x2FF ∧ 0x3FF < 0x400) ∧
    Spec.window .reset 0 0x100 = 1 ∧ Spec.window .reset 0 0x1FE = 0x8E ∧ Spec.window .reset 0 0x1FF = 0 ∧
    Spec.window .reset 5 0x200 = 5 ∧ Spec.window .reset 0 0x201 = 0 ∧ Spec.window .reset 0 0x2FF = 0xAF ∧
    Spec.window .reset 0 0x300 = 0 := by decide +kernel

theorem witness_CommandEndsCleanOrByErrorEntry : State.reset.fatal = false := rfl

theorem witness_FatalStateIsLeftOnlyByReset :
    fatalState.Inv ∧ fatalState.fatal = true ∧ HostAction.read 0x001 4 ≠ .reset ∧
    ∃ t, step (Spec.next (.read 0x001 4) fatalState) = .next t := ⟨fatalState_inv, rfl, by decide, _, rfl⟩

theorem witness_FatalEnteredOnlyByZeroDivisor :
    State.reset.fatal = false ∧ ∃ t, exec (.gfdiv 0 0) .reset = .next t ∧ t.fatal = true := ⟨rfl, _, rfl, rfl⟩

theorem witness_AddAndSubtractAreXor : State.reset.fatal = false ∧ (7#8 = 7#8) ∧ (0#8 = 0) := by decide

theorem witness_MultiplyAndPowerReadTheTables :
    State.reset.fatal = false ∧ (0#8 = 0#8 ∨ 7#8 = 0#8) ∧ 0x8E#8 ≠ 0#8 ∧ 0x02#8 ≠ 0#8 := by decide

theorem witness_MultiplyIsThePolynomialProduct : State.reset.fatal = false ∧ State.reset.tables = romTables := ⟨rfl, rfl⟩

theorem witness_DivideAndInvert : State.reset.fatal = false ∧ (0#8 = 0#8) ∧ (1#8 ≠ 0#8) ∧ (255#8 ≠ 0#8) := by decide

theorem witness_FieldLaws : (1#8 ≠ 0#8) ∧ (255#8 ≠ 0#8) := by decide

theorem witness_TablesAreInverseAndImmutable : step doneA = .next doneA := rfl

theorem witness_DataSegmentLayout :
    ([] : List Byte).length ≤ 17 ∧ (List.replicate 17 (0x41 : Byte)).length ≤ 17 ∧ (1 ≤ 1 ∧ 1 < 2) ∧ 16 < 17 - 0 := by
  decide

theorem witness_BsencWritesTheDataCodewords : textA.fatal = false ∧ Spec.ValidInput textA := by
  unfold Spec.ValidInput; decide +kernel

/-- `LEN` = 18 (X1); a bad code unit at index 2 with `LEN` = 5 (X4), and at index 16 with `LEN` = 17; `LEN` = 0 and
`LEN` = 17 valid. -/
theorem witness_BadInputAbortsTheEncode :
    17 < ({ textA with len := 18 } : State).len.toNat ∧
    (255 < (loaded [0x41, 0x42, 0x3A9, 0x44, 0xFFFF]).inp[2].toNat ∧
      ∀ j : Fin 17, j.val < 2 → (loaded [0x41, 0x42, 0x3A9, 0x44, 0xFFFF]).inp[j].toNat ≤ 255) ∧
    (16 < (loaded (List.replicate 16 0x41 ++ [0x100])).len.toNat ∧
      255 < (loaded (List.replicate 16 0x41 ++ [0x100])).inp[16].toNat ∧
      ∀ j : Fin 17, j.val < 16 → (loaded (List.replicate 16 0x41 ++ [0x100])).inp[j].toNat ≤ 255) ∧
    Spec.ValidInput .reset ∧ Spec.ValidInput (loaded (List.replicate 17 0xFF)) := by
  unfold Spec.ValidInput; decide +kernel

/-- X6: index 1 is not examined. -/
theorem witness_UnusedCodeUnitsAreIgnored :
    (∀ j : Fin 17, j.val < textA.len.toNat → (textA.inp.set 1 0x1FF)[j] = textA.inp[j]) ∧
    textA.inp.set 1 0x1FF ≠ textA.inp := by decide +kernel

theorem witness_RsgenWritesTheGenerator :
    State.reset.fatal = false ∧ (0 : Byte).toNat < 8 ∧ (7 : Byte).toNat < 8 ∧ 7 < (8 : Byte).toNat ∧
    State.reset.tables = romTables := by decide +kernel

theorem witness_GeneratorHasConsecutiveRoots : 0 < 1 ∧ 6 < 7 := by decide

theorem witness_ReDivisionLeavesZero : dcwA.toList.length = 19 := rfl

theorem witness_CodewordVanishesAtTheRoots : dcwA.toList.length = 19 ∧ 0 < 7 ∧ 6 < 7 := by decide

theorem witness_EccIsLinear : dcwA.toList.length = 19 ∧ (List.replicate 19 (0xFF : Byte)).length = 19 := by decide

theorem witness_RseccWritesTheEcc :
    dataA.fatal = false ∧ dataA.stage = .data ∧ State.reset.stage ≠ .data ∧ dataA.tables = romTables ∧
    dataA.dcw = dcwA := by decide +kernel

theorem witness_RschkLeavesAZeroRemainder :
    doneA.fatal = false ∧ doneA.stage ≠ .idle ∧ doneA.stage ≠ .data ∧ doneA.Inv ∧ State.reset.stage = .idle ∧
    dataA.stage = .data := ⟨rfl, by decide, by decide, doneA_inv, rfl, rfl⟩

theorem witness_PlacementOrder : (0, 12) ∈ Spec.place ∧ Spec.functionPlane.get 0 12 = false := by decide +kernel

theorem witness_MxbuildPlacesEveryBit :
    codedA.fatal = false ∧ codedA.stage = .ecc ∧ doneA.stage ≠ .ecc ∧ Spec.place[0]? = some (20, 20) ∧
    Spec.place[207]? = some (0, 12) ∧ Spec.functionPlane.get 8 13 = true := by decide +kernel

/-- The timing cell (6, 10) of 95_test_vectors.md. -/
theorem witness_CollidingDarkModuleIsAViolation : (6, 10) ≠ (8, 13) ∧ Spec.functionPlane.get 6 10 = true := by
  decide +kernel

theorem witness_MaskIsAnInvolution : Spec.functionPlane.get 0 0 = true ∧ 0 < 21 ∧ 20 < 21 := by decide +kernel

theorem witness_PredicateCounts : 0 < 4 ∧ 3 < 4 ∧ 0 < 12 ∧ 11 < 12 := by decide

theorem witness_LinePenaltyCountsMaximalRuns :
    (∀ r ∈ [(false, 4), (true, 5), (false, 12)], 1 ≤ r.2) ∧
    [(false, 4), (true, 5), (false, 12)].IsChain (fun a b => a.1 ≠ b.1) ∧ (List.replicate 21 true).length = 21 := by
  decide

/-- The least penalty of "A" is that of mask 0, and no lower mask ties (V1). -/
theorem witness_MaskselPicksTheLeastPenalty :
    placedA.fatal = false ∧ placedA.stage = .placed ∧ maskedA.stage ≠ .placed := by decide

theorem witness_FmtwrWritesBothCopies :
    maskedA.fatal = false ∧ maskedA.stage = .masked ∧ doneA.stage ≠ .masked ∧
    (8, 13) ∉ Spec.primary ++ Spec.secondary := by decide

theorem witness_NopOnlyClearsErr :
    State.reset.fatal = false ∧ State.reset.stage = .idle ∧ fatalState.fatal = true := ⟨rfl, rfl, rfl⟩

theorem witness_GenqrFinalGrid :
    textA.fatal = false ∧ Spec.ValidInput textA ∧ Spec.place[0]? = some (20, 20) ∧ Spec.functionPlane.get 8 13 = true ∧
    (8, 13) ∉ Spec.primary ++ Spec.secondary := by unfold Spec.ValidInput; decide +kernel

/-- Two states with one text, one of them with a finished grid and other code units beyond the text. -/
theorem witness_GenqrDependsOnTheTextOnly :
    textA.fatal = false ∧ doneA.fatal = false ∧ doneA.len = textA.len ∧ doneA.tables = textA.tables ∧
    ∀ j : Fin 17, j.val < textA.len.toNat → ({ doneA with inp := doneA.inp.set 1 0x65 } : State).inp[j] = textA.inp[j] := by
  decide +kernel

theorem witness_GenqrEqualsTheStagedScript :
    textA.fatal = false ∧ Spec.ValidInput textA ∧ ¬ Spec.ValidInput { textA with len := 18 } := by
  unfold Spec.ValidInput; decide +kernel

/-- A command that may run, one that may not, and one that may and fails. -/
theorem witness_StageTable :
    (Instr.rsecc.wellFormed = true ∧ (Instr.gfinv 0).wellFormed = true) ∧
    (Spec.mayRun .nop State.reset.stage ∧ ∃ t, exec .nop .reset = .next t ∧ t.err = none) ∧
    (¬ Spec.mayRun .rsecc State.reset.stage ∧ ∃ t, exec .rsecc .reset = .next t) ∧
    (Spec.mayRun (.gfinv 0) State.reset.stage ∧ ∃ t, exec (.gfinv 0) .reset = .next t ∧ t.err ≠ none) :=
  ⟨⟨rfl, rfl⟩, ⟨trivial, _, rfl, rfl⟩, ⟨by simp [Spec.mayRun, State.reset], _, rfl⟩, ⟨trivial, _, rfl, by decide⟩⟩

theorem witness_CommandsLeaveInputsAndTables : ∃ t, exec .nop .reset = .next t := ⟨_, rfl⟩

theorem witness_ResultAndGeneratorWriters :
    (∃ t, exec (.gfadd 0x53 0xCA) .reset = .next t ∧ t.result ≠ State.reset.result) ∧
    (∃ t, exec (.rsgen 0) .reset = .next t ∧ t.gen ≠ State.reset.gen) :=
  ⟨⟨_, rfl, by decide +kernel⟩, ⟨_, rfl, by decide +kernel⟩⟩

theorem witness_PerEncodeRegisterWriters :
    (∃ t, exec .nop .reset = .next t ∧ t.err = none) ∧
    (∃ t, exec (.rsgen 8) .reset = .next t ∧ t.err = some .illegalCommand) ∧
    (∃ t, exec .rsecc .reset = .next t ∧ t.err = some .stageOrder) ∧
    Instr.nop ≠ .bsenc ∧ Instr.nop ≠ .genqr ∧ Instr.nop ≠ .rsecc ∧ Instr.nop ≠ .rschk ∧ Instr.nop ≠ .masksel ∧
    Instr.nop ≠ .mxbuild ∧ Instr.nop ≠ .fmtwr :=
  ⟨⟨_, rfl, rfl⟩, ⟨_, rfl, rfl⟩, ⟨_, rfl, rfl⟩, by decide⟩

theorem witness_StepKeepsTheInvariant : doneA.Inv ∧ step doneA = .next doneA := ⟨doneA_inv, rfl⟩

/-- A state of the invariant with the error InputTooLong. -/
theorem tooLong_inv : ({ State.reset with err := some .inputTooLong } : State).Inv where
  tables_constant := rfl
  idle_cleared := by decide +kernel
  mode_indicator := by decide +kernel
  ecc_of_data := by decide +kernel
  function_flags := by decide +kernel
  best_least := by decide +kernel
  pen_bound := by decide +kernel
  rem_zero := rfl
  gen_degree := by decide +kernel
  fatal_state := by decide +kernel
  aborted_idle := by intro e; cases e <;> decide +kernel

/-- The end of a run that succeeded, of one that is reported and has no output (X1), of a fatal one; a finished encode
with GFINV 0 still to come has not ended. -/
theorem witness_RunEndClassification :
    doneA.runEnd = some .success ∧ doneA.Inv ∧ fatalState.runEnd = some .fatalFailure ∧
    ({ State.reset with err := some .inputTooLong } : State).runEnd = some .reportedFailure ∧
    ({ doneA with pending := [scriptCommand (.gfinv 0)] } : State).runEnd = none ∧
    ({ State.reset with err := some .inputTooLong } : State).Inv ∧ ∃ t, step doneA = .next t :=
  ⟨rfl, doneA_inv, rfl, rfl, rfl, tooLong_inv, _, rfl⟩

end Sys2Proof.Tests
end

/-! SUPPORT and proofs for the statements of the family 10_state.md: what a command writes, reset, and
the invariant with the facts of the units it needs. -/

namespace Sys2Proof.Machine

/-! ## What a command writes

`abortEncode` clears every per-encode register and `STAGE`, so `abortEncode t = abortEncode s` says that `s` and `t`
agree on everything else. As an equation it chains through the parts of GENQR. -/

/-- The six commands of the GaloisField unit (R110 to R115). -/
def IsFieldCommand (i : Instr) : Prop :=
  (∃ a b, i = .gfadd a b ∨ i = .gfsub a b ∨ i = .gfmul a b ∨ i = .gfdiv a b) ∨
    (∃ a, i = .gfinv a) ∨ ∃ n, i = .gfpow n

theorem andThen_eq_ok_iff {r : Except Raise State} {next : State → Except Raise State} {t : State} :
    andThen r next = .ok t ↔ ∃ u, r = .ok u ∧ next u = .ok t := by
  cases r <;> simp

/-- GENQR completes exactly when its five parts do, one after the other (R241). -/
theorem genqrBody_eq_ok_iff {s t : State} :
    genqrBody s = .ok t ↔ ∃ d, bsencBody s = .ok d ∧ ∃ e, rseccBody d = .ok e ∧ ∃ p, mxbuildBody e = .ok p ∧
      ∃ m, maskselBody p = .ok m ∧ fmtwrBody m = .ok t := by
  simp only [genqrBody, andThen_eq_ok_iff]
  constructor
  · rintro ⟨m, ⟨p, ⟨e, ⟨d, hd, he⟩, hp⟩, hm⟩, ht⟩
    exact ⟨d, hd, e, he, p, hp, m, hm, ht⟩
  · rintro ⟨d, hd, e, he, p, hp, m, hm, ht⟩
    exact ⟨m, ⟨p, ⟨e, ⟨d, hd, he⟩, hp⟩, hm⟩, ht⟩

theorem writeResult_ok {v : Except Raise Byte} {s t : State} (h : writeResult v s = .ok t) :
    ∃ r, t = { s with result := r } := by
  rcases writeResult_cases v s with ⟨r, -, e⟩ | ⟨r, -, e⟩ <;> rw [e] at h <;> cases h
  exact ⟨r, rfl⟩

theorem fieldCommand_ok {i : Instr} {s t : State} (hi : IsFieldCommand i) (h : commandBody i s = .ok t) :
    ∃ r, t = { s with result := r } := by
  rcases hi with ⟨a, b, rfl | rfl | rfl | rfl⟩ | ⟨a, rfl⟩ | ⟨n, rfl⟩ <;> (rw [commandBody] at h; exact writeResult_ok h)

theorem rsgenBody_ok_inv {n : Byte} {s t : State} (h : rsgenBody n s = .ok t) :
    n.toNat ≤ 7 ∧ t = { s with gen := registers 8 (rsGen s.tables n.toNat), genDeg := n.setWidth 4 } := by
  by_cases hn : n.toNat ≤ 7
  · rw [rsgenBody_ok n s hn] at h
    cases h
    exact ⟨hn, rfl⟩
  · rw [rsgenBody_error n s hn] at h
    cases h

theorem bsencBody_ok {s t : State} (h : bsencBody s = .ok t) :
    t = { clearEncodeState s with
      dcw := registers Config.nData (codewords (bsEncode (inputBytes s.inputUnits)))
      stage := .data } := by
  rcases bsencBody_cases s with ⟨-, e⟩ | ⟨-, i, -, e⟩ | ⟨-, -, e⟩ <;> rw [e] at h <;> cases h
  rfl

theorem mxbuildBody_ok {s t : State} (h : mxbuildBody s = .ok t) :
    t = { s with
      color := placeBits (functionPatterns darkModule).func scanOrder s.placedSequence (functionPatterns darkModule).color
      func := functionPlane
      stage := .placed } := by
  rw [mxbuildBody_eq] at h
  rw [functionPlane, ← Except.ok.inj h]

theorem maskselBody_ok {s t : State} (h : maskselBody s = .ok t) :
    t = { s with
      pen := (candidatePenalties s.color s.func).map fun p => BitVec.ofNat 16 p
      best := BitVec.ofNat 3 (bestMask (candidatePenalties s.color s.func)).val
      color := maskApply (bestMask (candidatePenalties s.color s.func)) s.color s.func
      stage := .masked } :=
  (Except.ok.inj (h : Except.ok _ = .ok t)).symm

/-- `abort_encode()` forgets what the per-encode registers and `STAGE` were. -/
theorem abortEncode_update (s : State) (dcw : Vector Byte Config.nData) (ecc rem : Vector Byte Config.nEcc)
    (pen : Vector (BitVec 16) 8) (best : BitVec 3) (color func : Plane) (stage : Stage) :
    abortEncode { s with dcw, ecc, rem, pen, best, color, func, stage } = abortEncode s := rfl

theorem bsencBody_outside {s t : State} (h : bsencBody s = .ok t) : abortEncode t = abortEncode s := by
  rw [bsencBody_ok h]; exact abortEncode_update s ..

theorem rseccBody_outside {s t : State} (h : rseccBody s = .ok t) : abortEncode t = abortEncode s := by
  cases h; exact abortEncode_update s ..

theorem mxbuildBody_outside {s t : State} (h : mxbuildBody s = .ok t) : abortEncode t = abortEncode s := by
  rw [mxbuildBody_ok h]; exact abortEncode_update s ..

theorem maskselBody_outside {s t : State} (h : maskselBody s = .ok t) : abortEncode t = abortEncode s := by
  rw [maskselBody_ok h]; exact abortEncode_update s ..

theorem fmtwrBody_outside {s t : State} (h : fmtwrBody s = .ok t) : abortEncode t = abortEncode s := by
  cases h; exact abortEncode_update s ..

theorem genqrBody_outside {s t : State} (h : genqrBody s = .ok t) : abortEncode t = abortEncode s := by
  obtain ⟨d, hd, e, he, p, hp, m, hm, ht⟩ := genqrBody_eq_ok_iff.mp h
  rw [fmtwrBody_outside ht, maskselBody_outside hm, mxbuildBody_outside hp, rseccBody_outside he, bsencBody_outside hd]

/-- Everything a command that completes can write: a field command `RESULT`, RSGEN the generator, and every other
command per-encode registers and `STAGE`. -/
theorem commandBody_writes {i : Instr} {s t : State} (h : commandBody i s = .ok t) :
    (IsFieldCommand i ∧ ∃ r, t = { s with result := r }) ∨
    (∃ n, i = .rsgen n ∧ ∃ g d, t = { s with gen := g, genDeg := d }) ∨
    abortEncode t = abortEncode s := by
  cases i with
  | nop => cases h; exact .inr (.inr rfl)
  | gfadd | gfsub | gfmul | gfdiv | gfinv | gfpow =>
    exact .inl ⟨by simp [IsFieldCommand], fieldCommand_ok (by simp [IsFieldCommand]) h⟩
  | bsenc => exact .inr (.inr (bsencBody_outside h))
  | rsgen n => exact .inr (.inl ⟨n, rfl, _, _, (rsgenBody_ok_inv h).2⟩)
  | rsecc => exact .inr (.inr (rseccBody_outside h))
  | rschk => cases h; exact .inr (.inr rfl)
  | mxbuild => exact .inr (.inr (mxbuildBody_outside h))
  | masksel => exact .inr (.inr (maskselBody_outside h))
  | fmtwr => exact .inr (.inr (fmtwrBody_outside h))
  | genqr => exact .inr (.inr (genqrBody_outside h))

/-- Everything executing a command can do, for a next state that is given: nothing in the fatal state, the entry of an
error, or its pseudocode to the end. -/
theorem exec_next {i : Instr} {s t : State} (h : exec i s = .next t) :
    (s.fatal = true ∧ t = s) ∨
    (s.fatal = false ∧ ∃ r, t = raiseError (encode i) r s) ∨
    (s.fatal = false ∧ need i s.stage = true ∧ ∃ u, commandBody i s = .ok u ∧ t = completed u) := by
  rcases exec_cases i s with ⟨hf, e⟩ | ⟨hf, -, e⟩ | ⟨hf, -, r, -, e⟩ | ⟨hf, hn, u, hu, e⟩ <;> rw [e] at h <;> cases h
  · exact .inl ⟨hf, rfl⟩
  · exact .inr (.inl ⟨hf, _, rfl⟩)
  · exact .inr (.inl ⟨hf, _, rfl⟩)
  · exact .inr (.inr ⟨hf, hn, u, hu, rfl⟩)

/-- The fields no command writes: `IN`, `LEN`, the tables and the host's port. -/
def SameInputsAndPort (s t : State) : Prop :=
  t.inp = s.inp ∧ t.len = s.len ∧ t.tables = s.tables ∧ t.pending = s.pending ∧ t.reads = s.reads ∧ t.draws = s.draws

theorem sameInputsAndPort_of_outside {s t : State} (h : abortEncode t = abortEncode s) : SameInputsAndPort s t :=
  ⟨(congrArg State.inp h :), (congrArg State.len h :), (congrArg State.tables h :), (congrArg State.pending h :),
    (congrArg State.reads h :), (congrArg State.draws h :)⟩

theorem commandBody_sameInputsAndPort {i : Instr} {s t : State} (h : commandBody i s = .ok t) :
    SameInputsAndPort s t := by
  rcases commandBody_writes h with ⟨-, r, rfl⟩ | ⟨n, -, g, d, rfl⟩ | e
  · exact ⟨rfl, rfl, rfl, rfl, rfl, rfl⟩
  · exact ⟨rfl, rfl, rfl, rfl, rfl, rfl⟩
  · exact sameInputsAndPort_of_outside e

/-- The per-encode registers that each command keeps, BSENC and GENQR aside (R16, R17, R19 to R22). -/
def KeepsOthersRegisters (i : Instr) (s t : State) : Prop :=
  t.dcw = s.dcw ∧
  (i ≠ .rsecc → t.ecc = s.ecc) ∧
  (i ≠ .rschk → t.rem = s.rem) ∧
  (i ≠ .masksel → t.pen = s.pen ∧ t.best = s.best) ∧
  (i ≠ .mxbuild → t.func = s.func ∧ (i ≠ .masksel → i ≠ .fmtwr → t.color = s.color))

/-- A change of the other fields keeps the per-encode registers, whatever the command. -/
theorem keepsOthersRegisters_of_eq (i : Instr) {s t : State} (hd : t.dcw = s.dcw) (he : t.ecc = s.ecc)
    (hr : t.rem = s.rem) (hp : t.pen = s.pen) (hb : t.best = s.best) (hf : t.func = s.func) (hc : t.color = s.color) :
    KeepsOthersRegisters i s t :=
  ⟨hd, fun _ => he, fun _ => hr, fun _ => ⟨hp, hb⟩, fun _ => ⟨hf, fun _ _ => hc⟩⟩

theorem commandBody_keepsOthersRegisters {i : Instr} {s t : State} (h : commandBody i s = .ok t)
    (hb : i ≠ .bsenc) (hg : i ≠ .genqr) : KeepsOthersRegisters i s t := by
  cases i with
  | nop => cases h; exact keepsOthersRegisters_of_eq _ rfl rfl rfl rfl rfl rfl rfl
  | gfadd | gfsub | gfmul | gfdiv | gfinv | gfpow =>
    obtain ⟨r, rfl⟩ := fieldCommand_ok (by simp [IsFieldCommand]) h
    exact keepsOthersRegisters_of_eq _ rfl rfl rfl rfl rfl rfl rfl
  | bsenc => exact absurd rfl hb
  | rsgen n =>
    obtain ⟨-, rfl⟩ := rsgenBody_ok_inv h
    exact keepsOthersRegisters_of_eq _ rfl rfl rfl rfl rfl rfl rfl
  | rsecc =>
    cases h
    exact ⟨rfl, fun n => absurd rfl n, fun _ => rfl, fun _ => ⟨rfl, rfl⟩, fun _ => ⟨rfl, fun _ _ => rfl⟩⟩
  | rschk =>
    cases h
    exact ⟨rfl, fun _ => rfl, fun n => absurd rfl n, fun _ => ⟨rfl, rfl⟩, fun _ => ⟨rfl, fun _ _ => rfl⟩⟩
  | mxbuild =>
    rw [mxbuildBody_ok h]
    exact ⟨rfl, fun _ => rfl, fun _ => rfl, fun _ => ⟨rfl, rfl⟩, fun n => absurd rfl n⟩
  | masksel =>
    rw [maskselBody_ok h]
    exact ⟨rfl, fun _ => rfl, fun _ => rfl, fun n => absurd rfl n, fun _ => ⟨rfl, fun n => absurd rfl n⟩⟩
  | fmtwr =>
    cases h
    exact ⟨rfl, fun _ => rfl, fun _ => rfl, fun _ => ⟨rfl, rfl⟩, fun _ => ⟨rfl, fun _ n => absurd rfl n⟩⟩
  | genqr => exact absurd rfl hg

/-- The errors with codes 1 to 4 are the four that are not IllegalCommand and not StageOrder (R266). -/
theorem aborts_eq_false_iff (e : ErrorKind) : e.aborts = false ↔ e = .illegalCommand ∨ e = .stageOrder := by
  cases e <;> simp [ErrorKind.aborts]

/-- Settles O54: an error keeps these fields, and so does every command's pseudocode. -/
theorem commandsLeaveInputsAndTables : Obligations.CommandsLeaveInputsAndTables := by
  intro i s t h
  rcases exec_next h with ⟨-, rfl⟩ | ⟨-, r, rfl⟩ | ⟨-, -, u, hu, rfl⟩
  · exact ⟨rfl, rfl, rfl, rfl, rfl, rfl⟩
  · simp
  · have keeps := commandBody_sameInputsAndPort hu
    exact keeps

/-- Settles O55: an error keeps `RESULT` and the generator, and a completed command writes what
`commandBody_writes` lists. -/
theorem resultAndGeneratorWriters : Obligations.ResultAndGeneratorWriters := by
  intro i s t h
  rcases exec_next h with ⟨-, rfl⟩ | ⟨-, r, rfl⟩ | ⟨-, -, u, hu, rfl⟩
  · simp
  · simp
  · rcases commandBody_writes hu with ⟨hi, r, rfl⟩ | ⟨n, hi, g, d, rfl⟩ | e
    · exact ⟨fun _ => ⟨rfl, hi⟩, by simp⟩
    · exact ⟨by simp, fun _ => ⟨n, hi⟩⟩
    · have hr : u.result = s.result := (congrArg State.result e :)
      have hg : u.gen = s.gen := (congrArg State.gen e :)
      have hd : u.genDeg = s.genDeg := (congrArg State.genDeg e :)
      simp [hr, hg, hd]

/-- Settles O56: the errors that remain are the two that only record themselves, and a completed command keeps the
registers of the others. -/
theorem perEncodeRegisterWriters : Obligations.PerEncodeRegisterWriters := by
  intro i s t h herr hb hg
  rcases exec_next h with ⟨-, rfl⟩ | ⟨-, r, rfl⟩ | ⟨-, -, u, hu, rfl⟩
  · exact keepsOthersRegisters_of_eq i rfl rfl rfl rfl rfl rfl rfl
  · have hr : r.error.aborts = false := (aborts_eq_false_iff _).mpr (by simpa using herr)
    rw [raiseError_protocol _ _ _ hr]
    exact keepsOthersRegisters_of_eq i rfl rfl rfl rfl rfl rfl rfl
  · have keeps := commandBody_keepsOthersRegisters hu hb hg
    exact keeps

/-! ## Reset -/

theorem getD_replicate_zero (n w k : Nat) : (List.replicate n (0#w)).getD k 0#w = 0#w := by
  rcases lt_or_ge k n with h | h <;> simp [List.getD, h]

theorem assertReset_exp_entries (s : State) : (assertReset s).tables.exp.entries = constructedExp := by
  rw [← expRom_eq_constructed, assertReset_tables, State.reset, romTables]

theorem assertReset_log_entries (s : State) : (assertReset s).tables.log.entries = constructedLog := by
  rw [← logRom_eq_constructed, assertReset_tables, State.reset, romTables]

/-- Settles O57: in stage 0 only the cleared registers, the tables and the zeros of `REM` and `GEN` are left to check. -/
theorem resetMeetsTheInvariant : Obligations.ResetMeetsTheInvariant where
  tables_constant := rfl
  idle_cleared _ := rfl
  mode_indicator h := absurd rfl h
  ecc_of_data h := absurd rfl h
  function_flags h := by simp [State.reset] at h
  best_least h := by simp [State.reset] at h
  pen_bound k := by simp [State.reset]
  rem_zero := rfl
  gen_degree := by simp [State.reset]
  fatal_state h := by simp [State.reset] at h
  aborted_idle _ h := by simp [State.reset] at h

/-- Settles O15: the tables are those of the construction, and every other field that the window shows is 0. -/
theorem resetLeavesTheStatedState : Obligations.ResetLeavesTheStatedState := by
  intro s
  refine ⟨assertReset s, rfl, fun draw a _ => ?_⟩
  have hstatus : Spec.status (assertReset s) = 0x80 := by simp [Spec.status, State.reset]
  simp only [Spec.window, hstatus, assertReset_exp_entries, assertReset_log_entries]
  simp only [assertReset, State.reset, Plane.clear, Vector.toList_replicate, getD_replicate_zero,
    BitVec.ofNat_eq_ofNat, BitVec.setWidth_zero]
  by_cases h1 : a = 0x001
  · simp only [h1, if_true]
  by_cases h2 : 0x100 ≤ a ∧ a ≤ 0x1FE
  · simp (disch := omega) only [if_pos, if_neg]
  by_cases h3 : a = 0x200
  · simp (disch := omega) only [if_pos, if_neg]
  by_cases h4 : 0x201 ≤ a ∧ a ≤ 0x2FF
  · simp (disch := omega) only [if_pos, if_neg]
  · simp only [if_neg h1, if_neg h2, if_neg h3, if_neg h4, ite_self]

/-! ## The re-division of a codeword (R157)

Division is additive in entries that no step takes as its factor: XORing `e` behind the `steps` entries that are divided
away XORs `e` into the remainder. -/

theorem zipWith_gfAdd_zeros (l : List Byte) : List.zipWith gfAdd l (List.replicate l.length 0) = l := by
  induction l with
  | nil => rfl
  | cons c l ih => simpa [List.replicate_succ, gfAdd] using ih

theorem zeros_zipWith_gfAdd (l : List Byte) : List.zipWith gfAdd (List.replicate l.length 0) l = l := by
  induction l with
  | nil => rfl
  | cons c l ih => simpa [List.replicate_succ, gfAdd] using ih

theorem zipWith_gfAdd_self (l : List Byte) : List.zipWith gfAdd l l = List.replicate l.length 0 := by
  simp [gfAdd]

theorem xorInto_zipWith_gfAdd (m e v : List Byte) :
    xorInto (List.zipWith gfAdd m e) v = List.zipWith gfAdd (xorInto m v) e := by
  induction m generalizing e v with
  | nil => cases v <;> simp [xorInto]
  | cons c m ih =>
    cases e with
    | nil => cases v <;> simp [xorInto]
    | cons b e =>
      cases v with
      | nil => simp [xorInto]
      | cons a v => simp [xorInto, ih, gfAdd, BitVec.xor_assoc, BitVec.xor_comm a b]

theorem divideStep_zipWith_gfAdd (t : GfTables) (g : List Byte) (c : Byte) (m e : List Byte) :
    divideStep t g (List.zipWith gfAdd (c :: m) (0 :: e)) = List.zipWith gfAdd (divideStep t g (c :: m)) (0 :: e) := by
  have hc : gfAdd c 0 = c := BitVec.xor_zero
  simp only [List.zipWith_cons_cons, hc, divideStep]
  split
  · rw [List.zipWith_cons_cons, hc]
  · rw [← xorInto_zipWith_gfAdd, List.zipWith_cons_cons, hc]

theorem rsDivide_zipWith_gfAdd (t : GfTables) (g : List Byte) (steps : Nat) (m e : List Byte) :
    rsDivide t g steps (List.zipWith gfAdd m (List.replicate steps 0 ++ e)) =
      List.zipWith gfAdd (rsDivide t g steps m) (List.replicate steps 0 ++ e) := by
  induction steps generalizing m with
  | zero => rfl
  | succ steps ih =>
    cases m with
    | nil => simp [rsDivide, divideStep]
    | cons c m =>
      rw [List.replicate_succ, List.cons_append, rsDivide, rsDivide, divideStep_zipWith_gfAdd]
      cases divideStep t g (c :: m) with
      | nil => rfl
      | cons h rest =>
        simp only [List.zipWith_cons_cons, ih]

/-- Re-dividing data codewords followed by their ECC leaves seven zeros, whatever the tables (R157). -/
theorem rsRemainder_append_rsEcc (t : GfTables) (d : List Byte) (hd : d.length = 19) :
    rsRemainder t (d ++ rsEcc t d) = List.replicate 7 0 := by
  have hecc : (rsEcc t d).length = 7 := length_rsEcc t d hd
  have asXor : d ++ rsEcc t d =
      List.zipWith gfAdd (d ++ List.replicate 7 0) (List.replicate 19 0 ++ rsEcc t d) := by
    have hl := zipWith_gfAdd_zeros d
    have hr := zeros_zipWith_gfAdd (rsEcc t d)
    rw [hd] at hl
    rw [hecc] at hr
    rw [List.zipWith_append (by simp [hd]), hl, hr]
  calc rsRemainder t (d ++ rsEcc t d)
      = List.zipWith gfAdd (rsEcc t d) (rsEcc t d) := by
        rw [asXor, rsRemainder, rsDivide_zipWith_gfAdd, List.drop_zipWith, List.drop_left' (by simp)]
        rfl
    _ = List.replicate 7 0 := by rw [zipWith_gfAdd_self, hecc]

theorem registers_replicate_zero (n : Nat) : registers n (List.replicate n 0) = Vector.replicate n 0 := by
  ext i hi
  simp [registers]

/-! ## The penalty's bound (R209) and the winner (R208) -/

theorem runPenalty_le (run : Nat) : runPenalty run ≤ run - 2 := by
  simp only [runPenalty]
  split <;> omega

/-- The scan adds at most the line's length minus 2, which one run of the whole line reaches. -/
theorem scanLine_le (prev : Bool) (run p : Nat) (l : List Bool) (hrun : 1 ≤ run) :
    scanLine prev run p l ≤ p + (run + l.length - 2) := by
  induction l generalizing prev run p with
  | nil => simpa [scanLine] using runPenalty_le run
  | cons c l ih =>
    simp only [scanLine, List.length_cons]
    split
    · have := ih c (run + 1) p (by omega)
      omega
    · have := ih c 1 (p + runPenalty run) le_rfl
      have := runPenalty_le run
      omega

theorem linePenalty_le (l : List Bool) (h : l.length = 21) : linePenalty l ≤ 19 := by
  cases l with
  | nil => simp at h
  | cons c l =>
    have := scanLine_le c 1 0 l le_rfl
    simp only [List.length_cons] at h
    simp only [linePenalty]
    omega

theorem sum_linePenalty_le (line : Nat → List Bool) (h : ∀ k, (line k).length = 21) :
    ((List.range 21).map fun k => linePenalty (line k)).sum ≤ 399 := by
  simpa using List.sum_le_card_nsmul ((List.range 21).map fun k => linePenalty (line k)) 19
    (by simpa using fun k _ => linePenalty_le (line k) (h k))

theorem penA_le (c : Plane) : penA c ≤ 798 := by
  have rows := sum_linePenalty_le c.rowLine (by simp [Plane.rowLine])
  have columns := sum_linePenalty_le c.columnLine (by simp [Plane.columnLine])
  simp only [penA, Config.side]
  omega

theorem length_windows : windows.length = 400 := by simp [windows]

theorem penB_le (c : Plane) : penB c ≤ 1200 := by
  have : windows.countP (fun w => sameColourBlock c w.1 w.2) ≤ windows.length := List.countP_le_length
  rw [length_windows] at this
  simp only [penB]
  omega

theorem penalty_le (c : Plane) : penalty c ≤ 1998 := by
  have := penA_le c
  have := penB_le c
  simp only [penalty]
  omega

/-- Going through increasing ids and replacing the best so far only by a strictly lower one finds the least, and the
lowest id among the least. -/
theorem foldl_strictly_lower_least {n : Nat} (pen : Vector Nat n) (ks : List (Fin n)) (b : Fin n)
    (h : (b :: ks).Pairwise (· < ·)) :
    let r := ks.foldl (fun best k => if pen[k] < pen[best] then k else best) b
    r ∈ b :: ks ∧ ∀ k ∈ b :: ks, pen[r] ≤ pen[k] ∧ (k < r → pen[r] < pen[k]) := by
  induction ks generalizing b with
  | nil => simp
  | cons k ks ih =>
    obtain ⟨hb, hk, hks⟩ : (∀ j ∈ k :: ks, b < j) ∧ (∀ j ∈ ks, k < j) ∧ ks.Pairwise (· < ·) := by
      simpa only [List.pairwise_cons] using h
    simp only [List.foldl_cons]
    split
    · next lower =>
      obtain ⟨hmem, hleast⟩ := ih k (List.pairwise_cons.mpr ⟨hk, hks⟩)
      refine ⟨List.mem_cons_of_mem _ hmem, List.forall_mem_cons.mpr ⟨?_, hleast⟩⟩
      have := (hleast k List.mem_cons_self).1
      exact ⟨by omega, fun _ => by omega⟩
    · next notLower =>
      obtain ⟨hmem, hleast⟩ := ih b (List.pairwise_cons.mpr ⟨fun j hj => hb j (List.mem_cons_of_mem _ hj), hks⟩)
      obtain ⟨hleastb, hleast⟩ := List.forall_mem_cons.mp hleast
      refine ⟨?_, List.forall_mem_cons.mpr ⟨hleastb, List.forall_mem_cons.mpr ⟨?_, hleast⟩⟩⟩
      · exact List.cons_subset_cons b (List.subset_cons_self k ks) hmem
      · have hbk := hb k List.mem_cons_self
        exact ⟨by omega, fun hkr => by have := hleastb.2 (hbk.trans hkr); omega⟩

/-- MASKSEL's winner has the least penalty, and every lower id a higher one (R208). -/
theorem bestMask_least (pen : Vector Nat 8) (k : Fin 8) :
    pen[bestMask pen] ≤ pen[k] ∧ (k < bestMask pen → pen[bestMask pen] < pen[k]) :=
  (foldl_strictly_lower_least pen [1, 2, 3, 4, 5, 6, 7] 0 (by decide)).2 k (by revert k; decide)

/-! ## The invariant (R35)

`completed s` has `ERR` = 0, so `(completed s).Inv` is the invariant with `FATAL` = 0 and without its two clauses on
errors. That is what holds between the parts of GENQR, where `ERR` may still hold the code of an earlier error. -/

/-- The invariant says nothing of `RESULT`, `IN`, `LEN`, `ERRCMD`, `ERRINFO` and the host's port. -/
theorem inv_update_unconstrained {s : State} (h : s.Inv) (result : Byte) (inp : Vector (BitVec Config.cpw) Config.maxLen)
    (len : BitVec Config.lenW) (errCmd : Word) (errInfo : BitVec 16) (pending : List HostAction) (reads : List Word)
    (draws : Nat) :
    State.Inv { s with result, inp, len, errCmd, errInfo, pending, reads, draws } :=
  { h with
    idle_cleared := fun hs => congrArg
      (fun u : State => { u with result, inp, len, errCmd, errInfo, pending, reads, draws }) (h.idle_cleared hs) }

theorem inv_completed {s : State} (h : s.Inv) (hf : s.fatal = false) : (completed s).Inv :=
  { h with
    idle_cleared := fun hs => congrArg completed (h.idle_cleared hs)
    fatal_state := fun e => absurd (hf.symm.trans e) (by decide)
    aborted_idle := fun _ e => nomatch e }

/-- Error entry keeps the invariant: the codes 1 to 4 clear the encode, the codes 5 and 6 only record themselves. -/
theorem inv_raiseError {s : State} (h : s.Inv) (hf : s.fatal = false) (w : Word) (r : Raise) :
    (raiseError w r s).Inv := by
  cases ha : r.error.aborts with
  | false =>
    rw [raiseError_protocol w r s ha]
    exact
      { h with
        idle_cleared := fun hs => congrArg (recordError w r) (h.idle_cleared hs)
        fatal_state := fun e => absurd (hf.symm.trans e) (by decide)
        aborted_idle := fun e he ha' => by cases he; rw [ha] at ha'; cases ha' }
  | true =>
    rw [raiseError_aborts w r s ha]
    exact
      { tables_constant := h.tables_constant
        idle_cleared := fun _ => rfl
        mode_indicator := fun n => absurd rfl n
        ecc_of_data := fun n => absurd rfl n
        function_flags := fun e => by simp at e
        best_least := fun e => by simp at e
        pen_bound := fun k => by simp
        rem_zero := rfl
        gen_degree := h.gen_degree
        fatal_state := fun e => ⟨rfl, by
          rcases r with ⟨⟨⟩, _⟩ <;> simp_all [ErrorKind.isFatal]⟩
        aborted_idle := fun _ _ _ => rfl }

theorem not_fatal_of_completed_inv {s : State} (h : (completed s).Inv) : ¬ s.fatal = true := fun hf => by
  have herr := (h.fatal_state hf).2
  simp at herr

/-! ### The parts of an encode -/

/-- The bits of a codeword are the eight bits it was made of (R8). -/
theorem bits8_codeword (b0 b1 b2 b3 b4 b5 b6 b7 : Bool) :
    bits8 (codeword b0 b1 b2 b3 b4 b5 b6 b7) = [b0, b1, b2, b3, b4, b5, b6, b7] := by
  revert b0 b1 b2 b3 b4 b5 b6 b7
  decide +kernel

/-- The first codeword of a data segment is the mode indicator and the upper half of the length (R131). -/
theorem codewords_bsEncode (data : List Byte) : ∃ b4 b5 b6 b7 rest,
    codewords (bsEncode data) = codeword false true false false b4 b5 b6 b7 :: rest :=
  ⟨_, _, _, _, _, rfl⟩

theorem mode_of_bsEncode (data : List Byte) :
    (bits8 (registers Config.nData (codewords (bsEncode data)))[0]).take 4 = [false, true, false, false] := by
  obtain ⟨b4, b5, b6, b7, rest, e⟩ := codewords_bsEncode data
  have first : (registers Config.nData (codewords (bsEncode data)))[0] = codeword false true false false b4 b5 b6 b7 := by
    simp [registers, e]
  rw [first, bits8_codeword]
  rfl

theorem inv_data {s : State} (h : (completed s).Inv) {dcw : Vector Byte Config.nData}
    (hmode : (bits8 dcw[0]).take 4 = [false, true, false, false]) :
    (completed { clearEncodeState s with dcw, stage := .data }).Inv where
  tables_constant := h.tables_constant
  idle_cleared := nofun
  mode_indicator _ := hmode
  ecc_of_data _ n := absurd rfl n
  function_flags := by simp
  best_least := by simp
  pen_bound := by simp
  rem_zero := rfl
  gen_degree := h.gen_degree
  fatal_state e := (not_fatal_of_completed_inv h e).elim
  aborted_idle := nofun

theorem inv_bsencBody {s t : State} (h : (completed s).Inv) (hb : bsencBody s = .ok t) :
    (completed t).Inv ∧ t.stage = .data := by
  rw [bsencBody_ok hb]
  exact ⟨inv_data h (mode_of_bsEncode _), rfl⟩

theorem inv_rseccBody {s t : State} (h : (completed s).Inv) (hs : s.stage = .data) (hb : rseccBody s = .ok t) :
    (completed t).Inv ∧ t.stage = .ecc := by
  cases hb
  exact ⟨
    { h with
      idle_cleared := nofun
      mode_indicator := fun _ => h.mode_indicator (by simp [hs])
      ecc_of_data := fun _ _ => rfl
      function_flags := by simp
      best_least := by simp
      fatal_state := fun e => (not_fatal_of_completed_inv h e).elim
      aborted_idle := nofun }, rfl⟩

theorem inv_rschkBody {s t : State} (h : (completed s).Inv) (hs : s.stage ≠ .idle ∧ s.stage ≠ .data)
    (hb : rschkBody s = .ok t) : (completed t).Inv := by
  have hecc : s.ecc.toList = rsEcc s.tables s.dataCodewords := by
    have e : s.ecc = registers 7 (rsEcc s.tables s.dataCodewords) := h.ecc_of_data hs.1 hs.2
    rw [e, toList_registers 7 _ (by simp)]
  have hrem : registers Config.nEcc (rsRemainder s.tables s.allCodewords) = Vector.replicate _ 0 := by
    rw [State.allCodewords, hecc, ← State.dataCodewords, rsRemainder_append_rsEcc _ _ (by simp),
      registers_replicate_zero]
  cases hb
  exact
    { h with
      idle_cleared := fun hi => absurd hi hs.1
      rem_zero := hrem }

theorem inv_mxbuildBody {s t : State} (h : (completed s).Inv) (hs : s.stage = .ecc) (hb : mxbuildBody s = .ok t) :
    (completed t).Inv ∧ t.stage = .placed := by
  rw [mxbuildBody_ok hb]
  exact ⟨
    { h with
      idle_cleared := nofun
      mode_indicator := fun _ => h.mode_indicator (by simp [hs])
      ecc_of_data := fun _ _ => h.ecc_of_data (by simp [hs]) (by simp [hs])
      function_flags := fun _ => rfl
      best_least := by simp
      fatal_state := fun e => (not_fatal_of_completed_inv h e).elim
      aborted_idle := nofun }, rfl⟩

theorem toNat_ofNat_of_le_1998 {p : Nat} (h : p ≤ 1998) : (BitVec.ofNat 16 p).toNat = p :=
  Nat.mod_eq_of_lt (by omega)

/-- `PEN[k]` holds candidate `k`'s penalty without loss (R20, R209). -/
theorem toNat_pen (color func : Plane) (k : Nat) (hk : k < 8) :
    (((candidatePenalties color func).map fun p => BitVec.ofNat 16 p)[k]).toNat = (candidatePenalties color func)[k] ∧
      (candidatePenalties color func)[k] ≤ 1998 := by
  have hle : (candidatePenalties color func)[k] ≤ 1998 := by
    simpa [candidatePenalties] using penalty_le _
  exact ⟨by rw [Vector.getElem_map, toNat_ofNat_of_le_1998 hle], hle⟩

theorem inv_masked {s : State} (h : (completed s).Inv) (hs : s.stage = .placed) {pen : Vector (BitVec 16) 8}
    {best : BitVec 3} (color : Plane) (hpen : ∀ k : Fin 8, pen[k].toNat ≤ 1998)
    (hbest : ∀ k : Fin 8, (pen[best.toNat]'best.isLt).toNat ≤ pen[k].toNat ∧
      (k.val < best.toNat → (pen[best.toNat]'best.isLt).toNat < pen[k].toNat)) :
    (completed { s with pen, best, color, stage := .masked }).Inv :=
  { h with
    idle_cleared := nofun
    mode_indicator := fun _ => h.mode_indicator (by simp [hs])
    ecc_of_data := fun _ _ => h.ecc_of_data (by simp [hs]) (by simp [hs])
    function_flags := fun _ => h.function_flags (.inl hs)
    best_least := fun _ => hbest
    pen_bound := hpen
    fatal_state := fun e => (not_fatal_of_completed_inv h e).elim
    aborted_idle := nofun }

theorem inv_maskselBody {s t : State} (h : (completed s).Inv) (hs : s.stage = .placed) (hb : maskselBody s = .ok t) :
    (completed t).Inv ∧ t.stage = .masked := by
  have hpen (k : Nat) (hk : k < 8) := toNat_pen s.color s.func k hk
  have hleast := bestMask_least (candidatePenalties s.color s.func)
  rw [maskselBody_ok hb]
  generalize candidatePenalties s.color s.func = pen at *
  have hid : (BitVec.ofNat 3 (bestMask pen).val).toNat = (bestMask pen).val := Nat.mod_eq_of_lt (bestMask pen).isLt
  refine ⟨inv_masked h hs _ (fun k => ?_) (fun k => ?_), rfl⟩
  · exact (hpen k k.isLt).1.trans_le (hpen k k.isLt).2
  · simp only [hid, Fin.getElem_fin, (hpen _ _).1]
    exact hleast k

theorem inv_done {s : State} (h : (completed s).Inv) (hs : s.stage = .masked) (color : Plane) :
    (completed { s with color, stage := .done }).Inv :=
  { h with
    idle_cleared := nofun
    mode_indicator := fun _ => h.mode_indicator (by simp [hs])
    ecc_of_data := fun _ _ => h.ecc_of_data (by simp [hs]) (by simp [hs])
    function_flags := fun _ => h.function_flags (.inr (.inl hs))
    best_least := fun _ => h.best_least (.inl hs)
    fatal_state := fun e => (not_fatal_of_completed_inv h e).elim
    aborted_idle := nofun }

theorem inv_fmtwrBody {s t : State} (h : (completed s).Inv) (hs : s.stage = .masked) (hb : fmtwrBody s = .ok t) :
    (completed t).Inv := by
  cases hb
  exact inv_done h hs _

theorem inv_genqrBody {s t : State} (h : (completed s).Inv) (hb : genqrBody s = .ok t) : (completed t).Inv := by
  obtain ⟨d, hd, e, he, p, hp, m, hm, ht⟩ := genqrBody_eq_ok_iff.mp hb
  obtain ⟨hdata, ds⟩ := inv_bsencBody h hd
  obtain ⟨hecc, es⟩ := inv_rseccBody hdata ds he
  obtain ⟨hplaced, ps⟩ := inv_mxbuildBody hecc es hp
  obtain ⟨hmasked, ms⟩ := inv_maskselBody hplaced ps hm
  exact inv_fmtwrBody hmasked ms ht

/-! ### The other commands -/

theorem inv_rsgenBody {n : Byte} {s t : State} (h : (completed s).Inv) (hb : rsgenBody n s = .ok t) :
    (completed t).Inv := by
  obtain ⟨hn, rfl⟩ := rsgenBody_ok_inv hb
  have hdeg : (n.setWidth 4).toNat = n.toNat := by rw [BitVec.toNat_setWidth]; omega
  refine
    { h with
      idle_cleared := fun hs => congrArg
        (fun u : State => { u with gen := registers 8 (rsGen s.tables n.toNat), genDeg := n.setWidth 4 })
        (h.idle_cleared hs)
      gen_degree := ⟨?_, fun j hj => ?_⟩ }
  · exact hdeg.trans_le hn
  · have hlen : (rsGen s.tables n.toNat).length ≤ j.val := by
      rw [length_rsGen]
      exact hdeg ▸ hj
    simp [registers, List.getElem?_eq_none hlen]

theorem inv_fieldCommand {i : Instr} {s t : State} (hi : IsFieldCommand i) (h : (completed s).Inv)
    (hb : commandBody i s = .ok t) : (completed t).Inv := by
  obtain ⟨r, rfl⟩ := fieldCommand_ok hi hb
  exact inv_update_unconstrained h r ..

/-- The pseudocode of every command that may run keeps the invariant, its clauses on errors aside. -/
theorem inv_commandBody {i : Instr} {s t : State} (h : (completed s).Inv) (hn : need i s.stage = true)
    (hb : commandBody i s = .ok t) : (completed t).Inv := by
  cases i with
  | nop => cases hb; exact h
  | gfadd | gfsub | gfmul | gfdiv | gfinv | gfpow => exact inv_fieldCommand (by simp [IsFieldCommand]) h hb
  | bsenc => exact (inv_bsencBody h hb).1
  | rsgen n => exact inv_rsgenBody h hb
  | rsecc => exact (inv_rseccBody h (by simpa [need] using hn) hb).1
  | rschk => exact inv_rschkBody h (by constructor <;> rintro hs <;> simp [need, hs] at hn) hb
  | mxbuild => exact (inv_mxbuildBody h (by simpa [need] using hn) hb).1
  | masksel => exact (inv_maskselBody h (by simpa [need] using hn) hb).1
  | fmtwr => exact inv_fmtwrBody h (by simpa [need] using hn) hb
  | genqr => exact inv_genqrBody h hb

theorem inv_exec {i : Instr} {s t : State} (h : s.Inv) (he : exec i s = .next t) : t.Inv := by
  rcases exec_next he with ⟨-, rfl⟩ | ⟨hf, r, rfl⟩ | ⟨hf, hn, u, hu, rfl⟩
  · exact h
  · exact inv_raiseError h hf _ r
  · exact inv_commandBody (inv_completed h hf) hn hu

/-! ### The host's actions -/

theorem inv_executeWord {w : Word} {s t : State} (h : s.Inv) (hf : s.fatal = false)
    (he : executeWord w s = .next t) : t.Inv := by
  rw [executeWord] at he
  split at he
  · exact inv_exec h he
  · cases he
    exact inv_raiseError h hf w _

/-- Everything a host write can do: nothing, the execution of a command word, or a write of `LEN` or `IN` (R42). -/
theorem hostWrite_next {a : Nat} {v : Word} {s t : State} (h : hostWrite a v s = .next t) :
    t = s ∨ (s.fatal = false ∧ executeWord v s = .next t) ∨ ∃ inp len, t = { s with inp, len } := by
  rw [hostWrite] at h
  split at h
  · cases h; exact .inl rfl
  · next hf =>
    split at h
    · exact .inr (.inl ⟨by simpa using hf, h⟩)
    · cases h; exact .inr (.inr ⟨_, _, rfl⟩)
    · cases h; exact .inr (.inr ⟨_, _, rfl⟩)
    all_goals (cases h; exact .inl rfl)

/-- Everything a host action that is not refused can do (R41, R42, R290). -/
theorem hostAct_next {act : HostAction} {s t : State} (h : hostAct act s = .next t) :
    t = assertReset s ∨ (∃ a, t = hostRead a s) ∨ ∃ a v, hostWrite a v s = .next t := by
  cases act with
  | reset => cases h; exact .inl rfl
  | read a size =>
    simp only [hostAct] at h
    split_ifs at h
    cases h
    exact .inr (.inl ⟨a, rfl⟩)
  | write a size v =>
    simp only [hostAct] at h
    split_ifs at h
    exact .inr (.inr ⟨a, v, h⟩)

theorem inv_hostAct {act : HostAction} {s t : State} (h : s.Inv) (ha : hostAct act s = .next t) : t.Inv := by
  rcases hostAct_next ha with rfl | ⟨a, rfl⟩ | ⟨a, v, hw⟩
  · exact inv_update_unconstrained resetMeetsTheInvariant ..
  · exact inv_update_unconstrained h ..
  · rcases hostWrite_next hw with rfl | ⟨hf, he⟩ | ⟨inp, len, rfl⟩
    · exact h
    · exact inv_executeWord h hf he
    · exact inv_update_unconstrained h ..

/-- Settles O58: the host's port is outside the invariant, and every host action keeps it. -/
theorem stepKeepsTheInvariant : Obligations.StepKeepsTheInvariant := by
  intro s t h hstep
  rw [step] at hstep
  split at hstep
  · cases hstep
    exact h
  · exact inv_hostAct (inv_update_unconstrained h ..) hstep

end Sys2Proof.Machine

/-! SUPPORT and proofs for the statements of the family 20_memory.md: which host accesses have a meaning, the address
map, and what the host's reads and writes of the register window do. -/

namespace Sys2Proof.Machine

/-! ## Accesses with and without a meaning (R44, R47) -/

/-- The host access is not one whole 32-bit word (R44). -/
def HostAction.NotOneWord (act : HostAction) : Prop :=
  ∃ a n, n ≠ 4 ∧ (act = .read a n ∨ ∃ v, act = .write a n v)

/-- The host access is one word, at an address outside 0x000..0x3FF (R47). -/
def HostAction.OutsideWindow (act : HostAction) : Prop :=
  ∃ a, 0x400 ≤ a ∧ (act = .read a 4 ∨ ∃ v, act = .write a 4 v)

theorem step_of_pending_nil {s : State} (h : s.pending = []) : step s = .next s := by
  rw [step, h]

theorem step_of_pending_cons {s : State} {act : HostAction} {rest : List HostAction} (h : s.pending = act :: rest) :
    step s = hostAct act { s with pending := rest } := by
  rw [step, h]

theorem step_next (act : HostAction) (s : State) : step (Spec.next act s) = hostAct act s :=
  step_of_pending_cons rfl

/-- A command word always has a next state: a legal one runs its command, an illegal one records the error. -/
theorem executeWord_isNext (w : Word) (s : State) : ∃ t, executeWord w s = .next t := by
  rw [executeWord]
  split
  · next i _ =>
    rcases exec_cases i s with ⟨-, e⟩ | ⟨-, -, e⟩ | ⟨-, -, r, -, e⟩ | ⟨-, -, u, -, e⟩ <;> exact ⟨_, e⟩
  · exact ⟨_, rfl⟩

theorem hostWrite_isNext (a : Nat) (v : Word) (s : State) : ∃ t, hostWrite a v s = .next t := by
  rw [hostWrite]
  split
  · exact ⟨_, rfl⟩
  · split
    · exact executeWord_isNext v s
    all_goals exact ⟨_, rfl⟩

theorem hostAct_notOneWord {act : HostAction} (h : act.NotOneWord) (s : State) :
    hostAct act s = .refused .notOneWord := by
  obtain ⟨a, n, hn, rfl | ⟨v, rfl⟩⟩ := h <;> exact if_pos hn

theorem hostAct_outsideWindow {act : HostAction} (h : act.OutsideWindow) (s : State) :
    hostAct act s = .refused .outsideWindow := by
  obtain ⟨a, ha, rfl | ⟨v, rfl⟩⟩ := h <;> exact if_pos ha

theorem hostAct_read {a : Nat} (ha : a < 0x400) (s : State) : hostAct (.read a 4) s = .next (hostRead a s) :=
  if_neg (Nat.not_le.mpr ha)

theorem hostAct_write {a : Nat} (ha : a < 0x400) (v : Word) (s : State) :
    hostAct (.write a 4 v) s = hostWrite a v s :=
  if_neg (Nat.not_le.mpr ha)

theorem hostAct_isNext {act : HostAction} (hword : ¬ act.NotOneWord) (hin : ¬ act.OutsideWindow) (s : State) :
    ∃ t, hostAct act s = .next t := by
  cases act with
  | reset => exact ⟨_, rfl⟩
  | read a n =>
    obtain rfl : n = 4 := by_contra fun hn => hword ⟨a, n, hn, .inl rfl⟩
    exact ⟨_, hostAct_read (Nat.not_le.mp fun ha => hin ⟨a, ha, .inl rfl⟩) s⟩
  | write a n v =>
    obtain rfl : n = 4 := by_contra fun hn => hword ⟨a, n, hn, .inr ⟨v, rfl⟩⟩
    rw [hostAct_write (Nat.not_le.mp fun ha => hin ⟨a, ha, .inr ⟨v, rfl⟩⟩)]
    exact hostWrite_isNext a v s

/-- Everything a host action can do, with the reason for each refusal. -/
theorem hostAct_cases (act : HostAction) (s : State) :
    (act.NotOneWord ∧ hostAct act s = .refused .notOneWord) ∨
    (act.OutsideWindow ∧ hostAct act s = .refused .outsideWindow) ∨
    (∃ t, hostAct act s = .next t) := by
  by_cases hword : act.NotOneWord
  · exact .inl ⟨hword, hostAct_notOneWord hword s⟩
  · by_cases hin : act.OutsideWindow
    · exact .inr (.inl ⟨hin, hostAct_outsideWindow hin s⟩)
    · exact .inr (.inr (hostAct_isNext hword hin s))

theorem hostAct_eq_notOneWord_iff {act : HostAction} {s : State} :
    hostAct act s = .refused .notOneWord ↔ act.NotOneWord := by
  refine ⟨fun h => ?_, fun h => hostAct_notOneWord h s⟩
  rcases hostAct_cases act s with ⟨hword, -⟩ | ⟨-, e⟩ | ⟨t, e⟩
  · exact hword
  · cases h.symm.trans e
  · cases h.symm.trans e

theorem hostAct_eq_outsideWindow_iff {act : HostAction} {s : State} :
    hostAct act s = .refused .outsideWindow ↔ act.OutsideWindow := by
  refine ⟨fun h => ?_, fun h => hostAct_outsideWindow h s⟩
  rcases hostAct_cases act s with ⟨-, e⟩ | ⟨hin, -⟩ | ⟨t, e⟩
  · cases h.symm.trans e
  · exact hin
  · cases h.symm.trans e

/-- Settles O11: with no action pending the step answers the same state, and otherwise it answers what the next action
does. -/
theorem onlyMeaninglessAccessesStop : Obligations.OnlyMeaninglessAccessesStop := by
  intro s
  cases hp : s.pending with
  | nil => simp [step_of_pending_nil hp]
  | cons act rest =>
    rw [step_of_pending_cons hp]
    refine ⟨fun f hf => ?_, ?_, ?_, ?_⟩
    · rcases hostAct_cases act { s with pending := rest } with ⟨-, e⟩ | ⟨-, e⟩ | ⟨t, e⟩ <;> cases hf.symm.trans e
    · rw [hostAct_eq_notOneWord_iff]
      simp [HostAction.NotOneWord, exists_or]
    · rw [hostAct_eq_outsideWindow_iff]
      simp [HostAction.OutsideWindow, exists_or]
    · rcases hostAct_cases act { s with pending := rest } with ⟨-, e⟩ | ⟨-, e⟩ | hnext
      · exact .inr (.inl e)
      · exact .inr (.inr e)
      · exact .inl hnext

/-! ## The address map (R43) -/

/-- Settles O12: a register's address meets the register's own condition of the map and none before it. -/
theorem registersAtTheirAddresses : Obligations.RegistersAtTheirAddresses := by
  intro l
  cases l with
  | inp | dcw | ecc | gen | rem | pen | row | frow | exp | log =>
    simp (disch := omega) only [Loc.addr, Loc.ofAddr, if_neg, dif_pos, dif_neg, Nat.add_sub_cancel_left]
  | _ => rfl

/-- An address of the map that names a register is the register's own address. -/
theorem addr_ofAddr (a : Nat) :
    (Loc.ofAddr a).addr = a ∨ Loc.ofAddr a = .reserved ∨ Loc.ofAddr a = .unmapped := by
  fun_cases Loc.ofAddr a <;> simp only [Loc.addr, reduceCtorEq, or_false, or_true] <;> omega

theorem ofAddr_eq_iff {a : Nat} {l : Loc} (hr : l ≠ .reserved) (hu : l ≠ .unmapped) :
    Loc.ofAddr a = l ↔ a = l.addr := by
  constructor
  · rintro rfl
    exact ((addr_ofAddr a).resolve_right (by simp [hr, hu])).symm
  · rintro rfl
    exact registersAtTheirAddresses l

/-! ## The host write (R42) -/

theorem hostWrite_fatal {s : State} (hf : s.fatal = true) (a : Nat) (v : Word) : hostWrite a v s = .next s := by
  rw [hostWrite, if_pos hf]

section
variable {s : State} (hf : s.fatal = false) (v : Word)
include hf

theorem hostWrite_cmd : hostWrite 0x000 v s = executeWord v s := by
  rw [hostWrite, hf]; rfl

theorem hostWrite_len : hostWrite 0x003 v s = .next { s with len := v.extractLsb' 0 8 } := by
  rw [← BitVec.setWidth_eq_extractLsb' (by decide), hostWrite, hf]; rfl

theorem hostWrite_inp (i : Fin 17) :
    hostWrite (0x010 + i) v s = .next { s with inp := s.inp.set i.val (v.extractLsb' 0 16) } := by
  have loc : Loc.ofAddr (0x010 + i) = .inp i := registersAtTheirAddresses (.inp i)
  rw [← BitVec.setWidth_eq_extractLsb' (by decide), hostWrite, hf, loc]; rfl

/-- A register that is none of `CMD`, `LEN` and `IN` ignores the write, as do reserved and unmapped addresses (R47). -/
theorem hostWrite_other {a : Nat} (hcmd : a ≠ 0x000) (hlen : a ≠ 0x003) (hinp : ¬ (0x010 ≤ a ∧ a ≤ 0x020)) :
    hostWrite a v s = .next s := by
  have notNamed {l : Loc} (hr : l ≠ .reserved) (hu : l ≠ .unmapped) (h : a ≠ l.addr) : Loc.ofAddr a ≠ l :=
    mt (ofAddr_eq_iff hr hu).mp h
  rw [hostWrite, hf]
  split
  · contradiction
  · split
    · next e => exact absurd e (notNamed nofun nofun hcmd)
    · next e => exact absurd e (notNamed nofun nofun hlen)
    · next i e => exact absurd e (notNamed nofun nofun (by simp only [Loc.addr]; omega))
    all_goals rfl

end

/-- Settles O8: the writable registers are found by their addresses, and a write to any other address is ignored. -/
theorem hostWriteFollowsTheMap : Obligations.HostWriteFollowsTheMap := by
  intro s a v ha
  rw [step_next, hostAct_write ha]
  split_ifs with hfatal hcmd hlen hinp
  · exact hostWrite_fatal hfatal a v
  all_goals have hf : s.fatal = false := by simpa using hfatal
  · rw [hcmd, hostWrite_cmd hf]
  · rw [hlen, hostWrite_len hf]
  · obtain ⟨i, rfl⟩ : ∃ i : Fin 17, a = 0x010 + i := ⟨⟨a - 0x010, by omega⟩, by simp; omega⟩
    simpa using hostWrite_inp hf v i
  · exact hostWrite_other hf v hcmd hlen hinp

/-! ## The host read (R41) -/

theorem getElem_eq_toList_getD {α : Type} {n : Nat} (v : Vector α n) (k : Nat) (h : k < n) (d : α) :
    v[k] = v.toList.getD k d := by
  simp [List.getD, h]

theorem read_eq_entries_getD {n : Nat} (t : ByteTable n) (i : Nat) (h : i < n) (d : Byte) :
    t.read i h = t.entries.getD i d := by
  simp [ByteTable.read, List.getD, t.size_eq, h]

/-- `STATUS` packs its fields at the bit positions of R26. -/
theorem statusWord_eq (s : State) : s.statusWord = Spec.status s := by
  simp only [State.statusWord, State.outputValid, Spec.status]
  rcases s.err with _ | ⟨⟨⟩⟩ <;> cases s.stage <;> cases s.fatal <;> rfl

/-- The map's word is the word of R43's table. An address that names no register (the last two cases) lies in no range
of the table; with the bounds in the table's form each hypothesis decides one of its conditions. -/
theorem wordAt_ofAddr (s : State) (draw : Byte) (a : Nat) :
    s.wordAt draw (Loc.ofAddr a) = Spec.window s draw a := by
  fun_cases Loc.ofAddr a with
  | case2 => subst a; exact statusWord_eq s
  | case1 | case3 | case4 | case5 | case6 | case7 | case8 | case18 => subst a; rfl
  | case20 | case21 =>
    rename_i reservedOrUnmapped
    clear reservedOrUnmapped
    simp only [Nat.lt_succ_iff] at *
    simp only [State.wordAt, Spec.window, if_false, *]
  | _ =>
    simp (disch := omega) only [State.wordAt, Spec.window, Fin.getElem_fin, getElem_eq_toList_getD (d := 0#_),
      read_eq_entries_getD (d := 0#_), BitVec.ofNat_eq_ofNat, if_pos, if_neg]

/-- Settles O9: a read has a next state, which differs by the word read and the draw taken. -/
theorem hostReadReturnsTheMappedWord : Obligations.HostReadReturnsTheMappedWord := by
  intro s a ha
  have isDraw : Loc.ofAddr a = .logZero ↔ a = 0x200 := ofAddr_eq_iff nofun nofun
  rw [step_next, hostAct_read ha, hostRead]
  simp only [wordAt_ofAddr, isDraw]

/-- Settles O10: the window shows the draw at 0x200, zero-extended. -/
theorem logZeroReadIsADraw : Obligations.LogZeroReadIsADraw := by
  intro s
  refine ⟨(Config.logZeroDraw s.draws).setWidth 32, hostReadReturnsTheMappedWord s 0x200 (by decide), ?_, ?_⟩
  · ext i hi
    simp
  · rw [BitVec.extractLsb'_setWidth_of_le (by decide), BitVec.extractLsb'_eq_self]

/-! ## The grid and the output (R46, R245) -/

theorem get_eq_false_of_side_le (p : Plane) {x : Nat} (h : Config.side ≤ x) (y : Nat) : p.get x y = false := by
  rw [Plane.get]
  split
  · exact BitVec.getLsbD_of_ge _ x h
  · rfl

/-- A row word, zero-extended, holds the cells of its row and zeros above them. -/
theorem getLsbD_row_setWidth (p : Plane) {x : Nat} (hx : x < 32) (y : Fin 21) :
    (p.rows[y].setWidth 32).getLsbD x = (decide (x < 21) && p.get x y) := by
  rw [BitVec.getLsbD_setWidth, getLsbD_row]
  by_cases h : x < 21
  · simp [h, hx]
  · simp [h, get_eq_false_of_side_le p (Nat.not_lt.mp h)]

/-- The top row of R177's function-flag plane. -/
theorem functionPlane_topRow : functionPlane.rows[0] = 0x1FE1FF := by decide +kernel

/-- Bit 3 of `STATUS` is `OUTV` (R26). -/
theorem statusWord_outv (s : State) : s.statusWord.getLsbD 3 = s.outputValid := by
  simp only [State.statusWord, BitVec.getLsbD_append]
  simp

theorem output_eq_some_iff (s : State) : s.output = some s.color ↔ s.outputValid = true := by
  simp [State.output, State.outputValid]

theorem output_eq_none_iff (s : State) : s.output = none ↔ s.outputValid = false := by
  simp [State.output, State.outputValid]

/-- Settles O13: the row registers stand at their addresses, the invariant fixes the function flags of a finished symbol,
and `OUTV` is what the output depends on. -/
theorem gridReadout : Obligations.GridReadout := by
  intro s draw
  refine ⟨fun x hx y hy => ⟨?_, ?_⟩, fun hinv hdone => ?_, ?_, ?_⟩
  · have loc : Loc.ofAddr (0x080 + y) = .row ⟨y, hy⟩ := registersAtTheirAddresses (.row ⟨y, hy⟩)
    rw [loc]
    exact getLsbD_row_setWidth s.color hx ⟨y, hy⟩
  · have loc : Loc.ofAddr (0x0A0 + y) = .frow ⟨y, hy⟩ := registersAtTheirAddresses (.frow ⟨y, hy⟩)
    rw [loc]
    exact getLsbD_row_setWidth s.func hx ⟨y, hy⟩
  · have flags : s.func = functionPlane := hinv.function_flags (.inr (.inr hdone))
    change s.func.rows[0].setWidth 32 = 0x1FE1FF
    rw [flags, functionPlane_topRow]
    rfl
  · rw [statusWord_outv, output_eq_some_iff]
  · rw [statusWord_outv, output_eq_none_iff]

end Sys2Proof.Machine

/-! SUPPORT and proofs for the statements of the family 30_encoding.md: the fields of a command word, the decoder and
the encoder, the opcode map, the assembler, and what the host's writes of `CMD`, `LEN` and `IN` run. -/

namespace Sys2Proof.Machine

/-! ## The fields of a command word (R60 to R64)

Each format is taken apart by its fields, and a word of the format has the fields it was put together from. -/

section
variable (op a b : Byte) (n : BitVec 24)

@[simp] theorem opField_encodeZ : opField (encodeZ op) = op := BitVec.extractLsb'_append_eq_left

@[simp] theorem wideField_encodeZ : wideField (encodeZ op) = 0 := BitVec.extractLsb'_append_eq_right

@[simp] theorem opField_encodeN : opField (encodeN op n) = op := BitVec.extractLsb'_append_eq_left

@[simp] theorem wideField_encodeN : wideField (encodeN op n) = n := BitVec.extractLsb'_append_eq_right

@[simp] theorem opField_encodeA : opField (encodeA op a) = op :=
  (BitVec.extractLsb'_append_eq_of_le (by decide)).trans BitVec.extractLsb'_append_eq_left

@[simp] theorem zeroFieldOfA_encodeA : zeroFieldOfA (encodeA op a) = 0 :=
  (BitVec.extractLsb'_append_eq_of_le (by decide)).trans BitVec.extractLsb'_append_eq_right

@[simp] theorem lowField_encodeA : lowField (encodeA op a) = a := BitVec.extractLsb'_append_eq_right

@[simp] theorem opField_encodeAB : opField (encodeAB op a b) = op :=
  (BitVec.extractLsb'_append_eq_of_le (by decide)).trans <|
    (BitVec.extractLsb'_append_eq_of_le (by decide)).trans BitVec.extractLsb'_append_eq_left

@[simp] theorem zeroFieldOfAB_encodeAB : zeroFieldOfAB (encodeAB op a b) = 0 :=
  (BitVec.extractLsb'_append_eq_of_le (by decide)).trans <|
    (BitVec.extractLsb'_append_eq_of_le (by decide)).trans BitVec.extractLsb'_append_eq_right

@[simp] theorem aFieldOfAB_encodeAB : aFieldOfAB (encodeAB op a b) = a :=
  (BitVec.extractLsb'_append_eq_of_le (by decide)).trans BitVec.extractLsb'_append_eq_right

@[simp] theorem lowField_encodeAB : lowField (encodeAB op a b) = b := BitVec.extractLsb'_append_eq_right

theorem encodeZ_eq_encodeN : encodeZ op = encodeN op 0 := rfl

theorem encodeA_eq_encodeN : encodeA op a = encodeN op ((0 : BitVec 16) ++ a) := BitVec.append_assoc ..

theorem encodeAB_eq_encodeN : encodeAB op a b = encodeN op ((0 : BitVec 8) ++ a ++ b) := by
  have outer : op ++ 0#8 ++ a ++ b = op ++ (0#8 ++ a) ++ b := congrArg (· ++ b) (BitVec.append_assoc ..)
  exact outer.trans (BitVec.append_assoc ..)

end

theorem encodeN_fields (w : Word) : encodeN (opField w) (wideField w) = w :=
  BitVec.extractLsb'_append_extractLsb' (w := 8) (len := 24)

theorem wideField_eq_fieldsOfA (w : Word) : wideField w = zeroFieldOfA w ++ lowField w :=
  (BitVec.extractLsb'_append_extractLsb'_eq_extractLsb' (x := w) (start₁ := 0) (len₁ := 8) (len₂ := 16) rfl).symm

theorem wideField_eq_fieldsOfAB (w : Word) : wideField w = zeroFieldOfAB w ++ aFieldOfAB w ++ lowField w := by
  have upper : zeroFieldOfAB w ++ aFieldOfAB w = zeroFieldOfA w :=
    BitVec.extractLsb'_append_extractLsb'_eq_extractLsb' rfl
  rw [upper, wideField_eq_fieldsOfA]

theorem lowField_toNat (w : Word) : (lowField w).toNat = w.toNat % 0x100 := by
  simp [lowField]

/-! ## Decoding an encoded command -/

/-- Settles O1: each format's decoder reads back the fields the encoder placed; RSGEN's degree is legal because the
command is well formed. -/
theorem decodeOfEncode : Obligations.DecodeOfEncode := by
  intro i hwf
  cases i with
  | nop | bsenc | rsecc | rschk | mxbuild | masksel | fmtwr | genqr => simp [encode, decode, decodeZ]
  | gfadd | gfsub | gfmul | gfdiv => simp [encode, decode, decodeAB]
  | gfinv => simp [encode, decode, decodeA]
  | gfpow => simp [encode, decode, decodeN]
  | rsgen n =>
    have hn : n.toNat ≤ Config.genMax := by simpa [Instr.wellFormed] using hwf
    simp [encode, decode, decodeDegree, hn]

/-! ## Encoding a decoded command

What a format's decoder accepts, of a word with opcode `k`, is the format's word with that opcode and the operands it
reads. -/

section
variable {w : Word} {j : Instr} {k : Nat} (hop : (opField w).toNat = k)
include hop

theorem opField_eq_ofNat : opField w = BitVec.ofNat 8 k := by
  rw [← hop, BitVec.ofNat_toNat, BitVec.setWidth_eq]

theorem decodeZ_ok {i : Instr} (h : decodeZ w i = .ok j) : j = i ∧ encodeZ (BitVec.ofNat 8 k) = w := by
  rw [decodeZ] at h
  split at h
  · next hz =>
    cases h
    refine ⟨rfl, ?_⟩
    rw [encodeZ_eq_encodeN, ← hz, ← opField_eq_ofNat hop, encodeN_fields]
  · cases h

theorem decodeA_ok {i : Byte → Instr} (h : decodeA w i = .ok j) :
    j = i (lowField w) ∧ encodeA (BitVec.ofNat 8 k) (lowField w) = w := by
  rw [decodeA] at h
  split at h
  · next hz =>
    cases h
    refine ⟨rfl, ?_⟩
    rw [encodeA_eq_encodeN, ← hz, ← wideField_eq_fieldsOfA, ← opField_eq_ofNat hop, encodeN_fields]
  · cases h

theorem decodeDegree_ok {i : Byte → Instr} (h : decodeDegree w i = .ok j) :
    (lowField w).toNat ≤ Config.genMax ∧ j = i (lowField w) ∧ encodeA (BitVec.ofNat 8 k) (lowField w) = w := by
  rw [decodeDegree] at h
  split at h
  · next hz =>
    split at h
    · next hn => exact ⟨hn, decodeA_ok hop (by rw [decodeA, if_pos hz, h])⟩
    · cases h
  · cases h

theorem decodeAB_ok {i : Byte → Byte → Instr} (h : decodeAB w i = .ok j) :
    j = i (aFieldOfAB w) (lowField w) ∧ encodeAB (BitVec.ofNat 8 k) (aFieldOfAB w) (lowField w) = w := by
  rw [decodeAB] at h
  split at h
  · next hz =>
    cases h
    refine ⟨rfl, ?_⟩
    rw [encodeAB_eq_encodeN, ← hz, ← wideField_eq_fieldsOfAB, ← opField_eq_ofNat hop, encodeN_fields]
  · cases h

theorem decodeN_ok {i : BitVec 24 → Instr} (h : decodeN w i = .ok j) :
    j = i (wideField w) ∧ encodeN (BitVec.ofNat 8 k) (wideField w) = w := by
  cases h
  refine ⟨rfl, ?_⟩
  rw [← opField_eq_ofNat hop, encodeN_fields]

end

/-- Settles O2, by the rows of the decoder: each format's word is the one with the row's opcode and the operands read;
only RSGEN's row leaves something to say of well-formedness. -/
theorem encodeOfDecode : Obligations.EncodeOfDecode := by
  intro w i
  fun_cases decode w with
  | case1 hop | case8 hop | case10 hop | case11 hop | case12 hop | case13 hop | case14 hop | case15 hop =>
    intro h
    obtain ⟨rfl, hw⟩ := decodeZ_ok hop h
    exact ⟨rfl, hw⟩
  | case2 hop | case3 hop | case4 hop | case5 hop =>
    intro h
    obtain ⟨rfl, hw⟩ := decodeAB_ok hop h
    exact ⟨rfl, hw⟩
  | case6 hop =>
    intro h
    obtain ⟨rfl, hw⟩ := decodeA_ok hop h
    exact ⟨rfl, hw⟩
  | case7 hop =>
    intro h
    obtain ⟨rfl, hw⟩ := decodeN_ok hop h
    exact ⟨rfl, hw⟩
  | case9 hop =>
    intro h
    obtain ⟨hn, rfl, hw⟩ := decodeDegree_ok hop h
    exact ⟨decide_eq_true hn, hw⟩
  | case16 => nofun

/-! ## The opcode map (R66) -/

theorem opcodeMap_getElem?_rowNumber (i : Instr) : Spec.opcodeMap[Spec.rowNumber i]? = some i.row := by
  cases i <;> rfl

theorem row_mem_opcodeMap (i : Instr) : i.row ∈ Spec.opcodeMap :=
  List.mem_of_getElem? (opcodeMap_getElem?_rowNumber i)

/-- Commands of one row number have one row. -/
theorem row_eq_of_rowNumber_eq {i j : Instr} (h : Spec.rowNumber i = Spec.rowNumber j) : i.row = j.row := by
  have hi := opcodeMap_getElem?_rowNumber i
  rw [h, opcodeMap_getElem?_rowNumber j] at hi
  exact (Option.some.inj hi).symm

/-- Every row of the map is the row of some command. -/
theorem exists_row_eq {row : Word × Word} (h : row ∈ Spec.opcodeMap) : ∃ i : Instr, i.row = row := by
  have hrows : Spec.opcodeMap = opcodeRows := rfl
  rw [hrows, opcodeRows, List.mem_map] at h
  obtain ⟨i, -, hi⟩ := h
  exact ⟨i, hi⟩

/-- The rows are distinct, so the number of a row is the row number of its commands. -/
theorem exists_rowNumber_eq {n : Nat} {row : Word × Word} (h : Spec.opcodeMap[n]? = some row) :
    ∃ i : Instr, Spec.rowNumber i = n ∧ i.row = row := by
  obtain ⟨i, rfl⟩ := exists_row_eq (List.mem_of_getElem? h)
  have hnodup : Spec.opcodeMap.Nodup := by decide
  have hi := opcodeMap_getElem?_rowNumber i
  obtain ⟨hlt, -⟩ := List.getElem?_eq_some_iff.mp hi
  exact ⟨i, (List.getElem?_inj hlt hnodup).mp (hi.trans h.symm), rfl⟩

/-- The word of a well-formed command selects the command's row. -/
theorem encode_selects_row {i : Instr} (hwf : i.wellFormed = true) : encode i &&& i.row.2 = i.row.1 := by
  have hs : Laws.EncodeSelectsRow.Statement i := by
    open Laws.EncodeSelectsRow in
    cases i with
    | nop => exact nop
    | gfadd a b => exact gfadd a b
    | gfsub a b => exact gfsub a b
    | gfmul a b => exact gfmul a b
    | gfdiv a b => exact gfdiv a b
    | gfinv a => exact gfinv a
    | gfpow n => exact gfpow n
    | bsenc => exact bsenc
    | rsgen n => exact rsgen n
    | rsecc => exact rsecc
    | rschk => exact rschk
    | mxbuild => exact mxbuild
    | masksel => exact masksel
    | fmtwr => exact fmtwr
    | genqr => exact genqr
  exact beq_iff_eq.mp (hs hwf)

theorem selects_row_of_decode {w : Word} {i : Instr} (h : decode w = .ok i) : w &&& i.row.2 = i.row.1 := by
  obtain ⟨hwf, rfl⟩ := encodeOfDecode w i h
  exact encode_selects_row hwf

/-- A field that the mask of a row covers has the row's value in every word that selects the row. -/
theorem field_of_selects {w : Word} {row : Word × Word} {start len : Nat}
    (hmask : row.2.extractLsb' start len = BitVec.allOnes len) (h : w &&& row.2 = row.1) :
    w.extractLsb' start len = row.1.extractLsb' start len := by
  rw [← h, BitVec.extractLsb'_and, hmask, BitVec.and_allOnes]

/-- The low byte of a word whose bits 7..3 are 0 is at most 7. -/
theorem lowField_le_of_upper_zero {w : Word} (h : w.extractLsb' 3 5 = 0) : (lowField w).toNat ≤ 7 := by
  have upper : w.toNat / 8 % 32 = 0 := by simpa [BitVec.toNat_eq, Nat.shiftRight_eq_div_pow] using h
  rw [lowField_toNat]
  omega

/-- A word that selects a command's row decodes to a command of that row: every mask covers the opcode and the fields
that must be 0. -/
theorem decode_of_selects_row {w : Word} {i : Instr} (h : w &&& i.row.2 = i.row.1) :
    ∃ j, decode w = .ok j ∧ Spec.rowNumber j = Spec.rowNumber i := by
  cases i with
  | nop | bsenc | rsecc | rschk | mxbuild | masksel | fmtwr | genqr =>
    rw [Instr.row] at h
    have hop : opField w = _ := field_of_selects rfl h
    have hz : wideField w = 0 := field_of_selects rfl h
    rw [decode, hop]
    exact ⟨_, if_pos hz, rfl⟩
  | gfadd | gfsub | gfmul | gfdiv =>
    rw [Instr.row] at h
    have hop : opField w = _ := field_of_selects rfl h
    have hz : zeroFieldOfAB w = 0 := field_of_selects rfl h
    rw [decode, hop]
    exact ⟨_, if_pos hz, rfl⟩
  | gfinv =>
    rw [Instr.row] at h
    have hop : opField w = _ := field_of_selects rfl h
    have hz : zeroFieldOfA w = 0 := field_of_selects rfl h
    rw [decode, hop]
    exact ⟨_, if_pos hz, rfl⟩
  | gfpow =>
    rw [Instr.row] at h
    have hop : opField w = _ := field_of_selects rfl h
    rw [decode, hop]
    exact ⟨_, rfl, rfl⟩
  | rsgen =>
    rw [Instr.row] at h
    have hop : opField w = _ := field_of_selects rfl h
    have hz : zeroFieldOfA w = 0 := field_of_selects rfl h
    have hn : (lowField w).toNat ≤ 7 := lowField_le_of_upper_zero (field_of_selects rfl h)
    rw [decode, hop]
    exact ⟨_, (if_pos hz).trans (if_pos hn), rfl⟩

/-- Settles O3: a command's word selects its row, a word that selects a row decodes to a command of that row, and a word
decodes to one command only. -/
theorem decodeFollowsTheOpcodeMap : Obligations.DecodeFollowsTheOpcodeMap := by
  refine ⟨rfl, fun w => ⟨fun n row hn => ?_, ⟨?_, fun hnone => ?_⟩, fun row hrow row' hrow' h h' => ?_⟩⟩
  · obtain ⟨i, rfl, rfl⟩ := exists_rowNumber_eq hn
    refine ⟨decode_of_selects_row, ?_⟩
    rintro ⟨j, hj, hnum⟩
    rw [← row_eq_of_rowNumber_eq hnum]
    exact selects_row_of_decode hj
  · rintro ⟨e, he⟩ row hrow h
    obtain ⟨i, rfl⟩ := exists_row_eq hrow
    obtain ⟨j, hj, -⟩ := decode_of_selects_row h
    cases he.symm.trans hj
  · cases hd : decode w with
    | error e => exact ⟨e, rfl⟩
    | ok i => exact absurd (selects_row_of_decode hd) (hnone i.row (row_mem_opcodeMap i))
  · obtain ⟨i, rfl⟩ := exists_row_eq hrow
    obtain ⟨i', rfl⟩ := exists_row_eq hrow'
    obtain ⟨j, hj, hnum⟩ := decode_of_selects_row h
    obtain ⟨j', hj', hnum'⟩ := decode_of_selects_row h'
    cases hj.symm.trans hj'
    exact row_eq_of_rowNumber_eq (hnum.symm.trans hnum')

/-! ## Illegal words (R67)

The fields of a word by division and remainder, and when a format's decoder rejects the word. -/

section
variable (w : Word)

theorem opField_toNat : (opField w).toNat = Spec.opcode w := by
  rw [opField, BitVec.extractLsb'_toNat, Nat.shiftRight_eq_div_pow, Spec.opcode]
  exact Nat.mod_eq_of_lt (by have := w.isLt; omega)

theorem wideField_eq_zero_iff : wideField w = 0 ↔ w.toNat % 0x1000000 = 0 := by
  simp [BitVec.toNat_eq, wideField]

theorem zeroFieldOfA_eq_zero_iff : zeroFieldOfA w = 0 ↔ w.toNat / 0x100 % 0x10000 = 0 := by
  simp [BitVec.toNat_eq, zeroFieldOfA, Nat.shiftRight_eq_div_pow]

theorem zeroFieldOfAB_eq_zero_iff : zeroFieldOfAB w = 0 ↔ w.toNat / 0x10000 % 0x100 = 0 := by
  simp [BitVec.toNat_eq, zeroFieldOfAB, Nat.shiftRight_eq_div_pow]

/-- A check that rejects a word adds its failure to the reasons the rest may have. -/
theorem exists_error_ite_iff {c : Prop} [Decidable c] {ε α : Type} {x : Except ε α} {e : ε} :
    (∃ e', (if c then x else .error e) = .error e') ↔ ¬ c ∨ ∃ e', x = .error e' := by
  by_cases hc : c <;> simp [hc]

theorem decodeZ_error_iff (i : Instr) : (∃ e, decodeZ w i = .error e) ↔ w.toNat % 0x1000000 ≠ 0 := by
  rw [decodeZ, exists_error_ite_iff, wideField_eq_zero_iff]
  simp

theorem decodeA_error_iff (i : Byte → Instr) :
    (∃ e, decodeA w i = .error e) ↔ w.toNat / 0x100 % 0x10000 ≠ 0 := by
  rw [decodeA, exists_error_ite_iff, zeroFieldOfA_eq_zero_iff]
  simp

theorem decodeDegree_error_iff (i : Byte → Instr) :
    (∃ e, decodeDegree w i = .error e) ↔ w.toNat / 0x100 % 0x10000 ≠ 0 ∨ 7 < w.toNat % 0x100 := by
  rw [decodeDegree, exists_error_ite_iff, exists_error_ite_iff, zeroFieldOfA_eq_zero_iff, lowField_toNat]
  simp

theorem decodeAB_error_iff (i : Byte → Byte → Instr) :
    (∃ e, decodeAB w i = .error e) ↔ w.toNat / 0x10000 % 0x100 ≠ 0 := by
  rw [decodeAB, exists_error_ite_iff, zeroFieldOfAB_eq_zero_iff]
  simp

/-- The decoder rejects exactly R67's words: a listed opcode leaves the conditions of its own format. -/
theorem decode_error_iff : (∃ e, decode w = .error e) ↔ Spec.Illegal w := by
  fun_cases decode w with
  | case1 hop | case8 hop | case10 hop | case11 hop | case12 hop | case13 hop | case14 hop | case15 hop =>
    rw [opField_toNat] at hop
    simp [Spec.Illegal, Spec.zOpcodes, hop, decodeZ_error_iff]
  | case2 hop | case3 hop | case4 hop | case5 hop =>
    rw [opField_toNat] at hop
    simp [Spec.Illegal, Spec.zOpcodes, hop, decodeAB_error_iff]
  | case6 hop =>
    rw [opField_toNat] at hop
    simp [Spec.Illegal, Spec.zOpcodes, hop, decodeA_error_iff]
  | case7 hop =>
    rw [opField_toNat] at hop
    simp [Spec.Illegal, Spec.zOpcodes, hop, decodeN]
  | case9 hop =>
    rw [opField_toNat] at hop
    simp [Spec.Illegal, Spec.zOpcodes, hop, decodeDegree_error_iff]
  | case16 =>
    simp only [opField_toNat, imp_false] at *
    simp [Spec.Illegal, Spec.zOpcodes, *]

end

/-! ## The execution of a command word (R73) -/

/-- A write to `CMD` executes the word, unless `FATAL` = 1 (R42, R73). -/
theorem step_write_cmd {s : State} (hf : s.fatal = false) (w : Word) :
    step (Spec.next (.write 0x000 4 w) s) = executeWord w s := by
  rw [step_next, hostAct_write (by decide), hostWrite_cmd hf]

/-- Settles O5: IllegalCommand is an error that only records itself. -/
theorem illegalWordRaisesIllegalCommand : Obligations.IllegalWordRaisesIllegalCommand := by
  refine fun w s => ⟨decode_error_iff w, fun hill hf => ?_⟩
  obtain ⟨e, he⟩ := (decode_error_iff w).mpr hill
  rw [step_write_cmd hf, executeWord, he, raiseError_protocol _ _ _ rfl]
  rfl

/-- Settles O7: while `FATAL` = 1 the write is ignored, and otherwise the decoder gives the command that is run. -/
theorem stepRunsTheDecodedCommand : Obligations.StepRunsTheDecodedCommand := by
  intro s w i hd
  constructor
  · split
    · next hf => rw [step_next, hostAct_write (by decide), hostWrite_fatal hf]
    · next hf => rw [step_write_cmd (Bool.eq_false_of_not_eq_true hf), executeWord, hd]
  · rw [State.withFetchWord, Nat.mod_eq_of_lt w.isLt, BitVec.ofNat_toNat, BitVec.setWidth_eq, Spec.next]

/-! ## LOADB (R72) -/

/-- The `IN` registers after writes of the given units to the given registers, one after the other. -/
def inpAfter (inp : Vector (BitVec Config.cpw) Config.maxLen) (writes : List (Fin 17 × Word)) :
    Vector (BitVec Config.cpw) Config.maxLen :=
  writes.foldl (fun inp p => inp.set p.1 (p.2.extractLsb' 0 16)) inp

theorem run_succ_of_next {M : Host.Core} {s t : M.State} (h : M.step s = .next t) (k : Nat) :
    M.run (k + 1) s = M.run k t := by
  rw [Host.Core.run, h]

/-- The first step of a run performs the next pending action. -/
theorem run_pending_cons {s t : State} {act : HostAction} {rest : List HostAction} (hp : s.pending = act :: rest)
    (h : hostAct act { s with pending := rest } = .next t) (k : Nat) :
    Host.Core.run Sys2Proof.core (k + 1) s = Host.Core.run Sys2Proof.core k t :=
  run_succ_of_next (M := Sys2Proof.core) ((step_of_pending_cons hp).trans h) k

section
variable {s : State} {rest : List HostAction} (hf : s.fatal = false)
include hf

/-- `WR LEN, v` keeps the low 8 bits. -/
theorem run_scriptWrite_len {v : Word} (hp : s.pending = scriptWrite .len v :: rest) (k : Nat) :
    Host.Core.run Sys2Proof.core (k + 1) s =
      Host.Core.run Sys2Proof.core k ({ s with len := v.extractLsb' 0 8, pending := rest } : State) :=
  run_pending_cons hp (hostWrite_len (s := { s with pending := rest }) hf v) k

/-- `WR IN[i], v` keeps the low 16 bits. -/
theorem run_scriptWrite_inp {i : Fin 17} {v : Word} (hp : s.pending = scriptWrite (.inp i) v :: rest) (k : Nat) :
    Host.Core.run Sys2Proof.core (k + 1) s =
      Host.Core.run Sys2Proof.core k
        ({ s with inp := s.inp.set i.val (v.extractLsb' 0 16), pending := rest } : State) := by
  have inWindow : 0x010 + i.val < 0x400 := by omega
  exact run_pending_cons hp
    ((hostAct_write inWindow v _).trans (hostWrite_inp (s := { s with pending := rest }) hf v i)) k

end

/-- The lines `WR IN[i], v` of a script run one after the other. -/
theorem run_inpWrites {s : State} {writes : List (Fin 17 × Word)} {rest : List HostAction} (hf : s.fatal = false)
    (hp : s.pending = (writes.map fun p => scriptWrite (.inp p.1) p.2) ++ rest) :
    Host.Core.run Sys2Proof.core writes.length s = .next { s with inp := inpAfter s.inp writes, pending := rest } := by
  induction writes generalizing s with
  | nil =>
    obtain rfl : s.pending = rest := hp
    rfl
  | cons p writes ih =>
    exact (run_scriptWrite_inp hf hp writes.length).trans (ih hf rfl)

/-- The lines of LOADB: `WR LEN, n`, then a write of `IN` for each of the first 17 units. -/
theorem run_loadUnits {s : State} {units : List Word} {rest : List HostAction} (hf : s.fatal = false)
    (hp : s.pending = loadUnits units ++ rest) :
    Host.Core.run Sys2Proof.core (min units.length 17 + 1) s =
      .next { s with
        len := BitVec.ofNat 8 units.length
        inp := inpAfter s.inp ((List.finRange 17).zip units)
        pending := rest } := by
  have hlength : min units.length 17 = ((List.finRange 17).zip units).length := by simp [Nat.min_comm]
  have hlen : BitVec.ofNat 8 units.length = (BitVec.ofNat 32 units.length).extractLsb' 0 8 := by
    rw [← BitVec.setWidth_eq_extractLsb' (by decide), BitVec.setWidth_ofNat_of_le (by decide)]
  rw [hlength, hlen]
  exact (run_scriptWrite_len hf hp _).trans (run_inpWrites (s := { s with len := _, pending := _ }) hf rfl)

/-- After writes that all take their values from the sequence `units`, a register that was written holds its unit. -/
theorem getElem_inpAfter {units : List Word} {writes : List (Fin 17 × Word)}
    (h : ∀ p ∈ writes, p.2 = units.getD p.1 0) (inp : Vector (BitVec Config.cpw) Config.maxLen) (i : Fin 17) :
    (inpAfter inp writes)[i] =
      if i ∈ writes.map Prod.fst then (units.getD i 0).extractLsb' 0 16 else inp[i] := by
  induction writes generalizing inp with
  | nil => rfl
  | cons p writes ih =>
    obtain ⟨hp, hrest⟩ := List.forall_mem_cons.mp h
    rw [inpAfter, List.foldl_cons, ← inpAfter, ih hrest]
    by_cases hi : i ∈ writes.map Prod.fst
    · simp [hi]
    · by_cases hip : p.1 = i
      · subst hip
        simp [hi, hp]
      · simp [hi, Vector.getElem_set_ne, Fin.val_ne_of_ne hip, Ne.symm hip]

theorem mem_zip_finRange_iff {units : List Word} {p : Fin 17 × Word} :
    p ∈ (List.finRange 17).zip units ↔ units[p.1.val]? = some p.2 := by
  rw [List.mem_iff_getElem?]
  simp only [List.getElem?_zip_eq_some]
  constructor
  · rintro ⟨k, hk, hu⟩
    obtain ⟨hlt, hk⟩ := List.getElem?_eq_some_iff.mp hk
    rw [List.getElem_finRange] at hk
    rw [← hk]
    exact hu
  · intro hu
    exact ⟨p.1, by simp, hu⟩

theorem mem_map_fst_zip_finRange_iff {units : List Word} {i : Fin 17} :
    i ∈ ((List.finRange 17).zip units).map Prod.fst ↔ i.val < units.length := by
  calc i ∈ ((List.finRange 17).zip units).map Prod.fst
    _ ↔ ∃ u, units[i.val]? = some u := by simp [mem_zip_finRange_iff]
    _ ↔ units[i.val]?.isSome = true := Option.isSome_iff_exists.symm
    _ ↔ i.val < units.length := by simp

theorem inpAfter_zip_finRange (units : List Word) (inp : Vector (BitVec Config.cpw) Config.maxLen) :
    inpAfter inp ((List.finRange 17).zip units) =
      Vector.ofFn fun i => if h : i.val < units.length then (units[i.val]).setWidth 16 else inp[i] := by
  have fromUnits : ∀ p ∈ (List.finRange 17).zip units, p.2 = units.getD p.1 0 := by
    intro p hp
    rw [List.getD, mem_zip_finRange_iff.mp hp, Option.getD_some]
  apply Vector.ext
  intro k hk
  have hget := getElem_inpAfter fromUnits inp ⟨k, hk⟩
  simp only [mem_map_fst_zip_finRange_iff] at hget
  rw [Vector.getElem_ofFn]
  refine hget.trans ?_
  split
  · next h => simp [List.getD, h, BitVec.setWidth_eq_extractLsb']
  · rfl

/-- Settles O14: the lines write `LEN` and the `IN` registers one after the other, each unit to the register of its own
number; LOAD is LOADB of the code points by definition. -/
theorem loadSetsTheInput : Obligations.LoadSetsTheInput := by
  refine ⟨fun s units hf => ?_, fun text => rfl⟩
  rw [← inpAfter_zip_finRange]
  exact run_loadUnits (s := { s with pending := loadUnits units ++ s.pending }) hf rfl

/-! ## The statements about listed words and lines -/

/-- Settles O4: fifteen closed words. -/
theorem sampleWordsDecode : Obligations.SampleWordsDecode := by
  unfold Obligations.SampleWordsDecode
  decide

/-- Settles O6: sixteen closed lines. -/
theorem assemblerReadsEveryCommand : Obligations.AssemblerReadsEveryCommand := by
  unfold Obligations.AssemblerReadsEveryCommand
  decide

end Sys2Proof.Machine

/-! SUPPORT and proofs for the statements of the family 40_galois_field.md: running a field command, the field
operations as arithmetic on the indexes of `EXP`, the product by shift and reduce, and that no step changes the tables. -/

namespace Sys2Proof.Machine

/-! ## Running a field command (R110 to R115) -/

/-- A field command that has a result writes it, clears `ERR`, and changes nothing else. -/
theorem exec_of_writeResult_ok {i : Instr} {s : State} {r : Byte} (hf : s.fatal = false) (hn : need i s.stage = true)
    (hb : commandBody i s = writeResult (.ok r) s) : exec i s = .next { s with result := r, err := none } := by
  rw [exec_eq_runCommand, runCommand_ok i _ s _ hf hn hb]
  rfl

/-- A field command that raises DivideByZero aborts the encode and sets `FATAL` (R263, R266). -/
theorem exec_of_divideByZero {i : Instr} {s : State} (hf : s.fatal = false) (hn : need i s.stage = true)
    (hb : commandBody i s = writeResult (.error ⟨.divideByZero, 0⟩) s) :
    exec i s = .next (Spec.aborted s .divideByZero (encode i) 0 true) := by
  rw [exec_eq_runCommand, runCommand_error i _ s _ hf hn hb]
  rfl

section
variable {s : State} (hf : s.fatal = false) (a b : Byte)
include hf

theorem exec_gfadd : exec (.gfadd a b) s = .next { s with result := a ^^^ b, err := none } :=
  exec_of_writeResult_ok hf rfl rfl

theorem exec_gfsub : exec (.gfsub a b) s = .next { s with result := a ^^^ b, err := none } :=
  exec_of_writeResult_ok hf rfl rfl

theorem exec_gfmul : exec (.gfmul a b) s = .next { s with result := gfMul s.tables a b, err := none } :=
  exec_of_writeResult_ok hf rfl rfl

theorem exec_gfpow (n : BitVec 24) :
    exec (.gfpow n) s = .next { s with result := gfPow s.tables n.toNat, err := none } :=
  exec_of_writeResult_ok hf rfl rfl

variable {a b} {r : Byte}

theorem exec_gfdiv_of_ok (h : gfDiv s.tables a b = .ok r) :
    exec (.gfdiv a b) s = .next { s with result := r, err := none } :=
  exec_of_writeResult_ok hf rfl (congrArg (writeResult · s) h)

theorem exec_gfdiv_of_error (h : gfDiv s.tables a b = .error ⟨.divideByZero, 0⟩) :
    exec (.gfdiv a b) s = .next (Spec.aborted s .divideByZero (encode (.gfdiv a b)) 0 true) :=
  exec_of_divideByZero hf rfl (congrArg (writeResult · s) h)

theorem exec_gfinv_of_ok (h : gfInv s.tables a = .ok r) :
    exec (.gfinv a) s = .next { s with result := r, err := none } :=
  exec_of_writeResult_ok hf rfl (congrArg (writeResult · s) h)

theorem exec_gfinv_of_error (h : gfInv s.tables a = .error ⟨.divideByZero, 0⟩) :
    exec (.gfinv a) s = .next (Spec.aborted s .divideByZero (encode (.gfinv a)) 0 true) :=
  exec_of_divideByZero hf rfl (congrArg (writeResult · s) h)

end

/-! ## The field operations, case by case (R105 to R108) -/

section
variable (t : GfTables) {a b : Byte}

@[simp] theorem gfMul_zero_left (b : Byte) : gfMul t 0#8 b = 0#8 := dif_pos (.inl rfl)

@[simp] theorem gfMul_zero_right (a : Byte) : gfMul t a 0#8 = 0#8 := dif_pos (.inr rfl)

theorem gfMul_of_ne_zero (ha : a ≠ 0#8) (hb : b ≠ 0#8) :
    gfMul t a b = t.gfExp (((t.logOf a ha).toNat + (t.logOf b hb).toNat) % 255) :=
  dif_neg (not_or.mpr ⟨ha, hb⟩)

theorem gfDiv_zero_right (a : Byte) : gfDiv t a 0#8 = .error ⟨.divideByZero, 0⟩ := dif_pos rfl

theorem gfDiv_zero_left (hb : b ≠ 0#8) : gfDiv t 0#8 b = .ok 0#8 := (dif_neg hb).trans (dif_pos rfl)

theorem gfDiv_of_ne_zero (ha : a ≠ 0#8) (hb : b ≠ 0#8) :
    gfDiv t a b = .ok (t.gfExp (((t.logOf a ha).toNat + 255 - (t.logOf b hb).toNat) % 255)) :=
  (dif_neg hb).trans (dif_neg ha)

theorem gfInv_zero : gfInv t 0#8 = .error ⟨.divideByZero, 0⟩ := dif_pos rfl

theorem gfInv_of_ne_zero (ha : a ≠ 0#8) : gfInv t a = .ok (t.gfExp (255 - (t.logOf a ha).toNat)) := dif_neg ha

theorem gfPow_eq_gfExp (n : Nat) : gfPow t n = t.gfExp n := gfExp_mod t n

theorem gfMul_comm (a b : Byte) : gfMul t a b = gfMul t b a := by
  by_cases ha : a = 0#8
  · simp [ha]
  · by_cases hb : b = 0#8
    · simp [hb]
    · rw [gfMul_of_ne_zero t ha hb, gfMul_of_ne_zero t hb ha, Nat.add_comm]

end

/-! ## The tables (R101, R102)

With tables that are inverse to each other every nonzero element is an entry of `EXP`, and the operations act on the
indexes alone. -/

theorem gfExp_congr (t : GfTables) {i j : Nat} (h : i % 255 = j % 255) : t.gfExp i = t.gfExp j := by
  rw [← gfExp_mod, h, gfExp_mod]

section
variable {t : GfTables} (ht : t.Inverse)
include ht

theorem gfExp_ne_zero (i : Nat) : t.gfExp i ≠ 0#8 := by
  obtain ⟨hne, -⟩ := ht.2 (i % 255) (Nat.mod_lt i (by decide))
  rwa [gfExp_mod] at hne

theorem logOf_gfExp (i : Nat) (h : t.gfExp i ≠ 0#8) : (t.logOf (t.gfExp i) h).toNat = i % 255 := by
  obtain ⟨_, hlog⟩ := ht.2 (i % 255) (Nat.mod_lt i (by decide))
  simpa only [gfExp_mod] using hlog

theorem exists_gfExp_eq {a : Byte} (ha : a ≠ 0#8) : ∃ i, t.gfExp i = a := ⟨_, ht.1 a ha⟩

theorem gfMul_gfExp (i j : Nat) : gfMul t (t.gfExp i) (t.gfExp j) = t.gfExp (i + j) := by
  rw [gfMul_of_ne_zero t (gfExp_ne_zero ht i) (gfExp_ne_zero ht j), logOf_gfExp ht, logOf_gfExp ht, ← Nat.add_mod,
    gfExp_mod]

theorem gfDiv_gfExp (i j : Nat) : gfDiv t (t.gfExp i) (t.gfExp j) = .ok (t.gfExp (i + (255 - j % 255))) := by
  rw [gfDiv_of_ne_zero t (gfExp_ne_zero ht i) (gfExp_ne_zero ht j), logOf_gfExp ht, logOf_gfExp ht]
  exact congrArg Except.ok (gfExp_congr t (by omega))

theorem gfInv_gfExp (i : Nat) : gfInv t (t.gfExp i) = .ok (t.gfExp (255 - i % 255)) := by
  rw [gfInv_of_ne_zero t (gfExp_ne_zero ht i), logOf_gfExp ht]

/-- Division undoes multiplication (R116). -/
theorem gfDiv_gfMul_cancel (a : Byte) {b : Byte} (hb : b ≠ 0#8) : gfDiv t (gfMul t a b) b = .ok a := by
  by_cases ha : a = 0#8
  · rw [ha, gfMul_zero_left, gfDiv_zero_left t hb]
  · obtain ⟨i, rfl⟩ := exists_gfExp_eq ht ha
    obtain ⟨j, rfl⟩ := exists_gfExp_eq ht hb
    rw [gfMul_gfExp ht, gfDiv_gfExp ht]
    exact congrArg Except.ok (gfExp_congr t (by omega))

/-- Division is multiplication by the inverse (R116). -/
theorem gfDiv_eq_gfMul_gfInv (a : Byte) {b : Byte} (hb : b ≠ 0#8) :
    ∃ v, gfInv t b = .ok v ∧ gfDiv t a b = .ok (gfMul t a v) := by
  obtain ⟨j, rfl⟩ := exists_gfExp_eq ht hb
  refine ⟨_, gfInv_gfExp ht j, ?_⟩
  by_cases ha : a = 0#8
  · rw [ha, gfMul_zero_left, gfDiv_zero_left t hb]
  · obtain ⟨i, rfl⟩ := exists_gfExp_eq ht ha
    rw [gfDiv_gfExp ht, gfMul_gfExp ht]

variable (h0 : t.gfExp 0 = 1)
include h0

/-- An element times its inverse is 1 (R116). -/
theorem exists_gfInv_gfMul_eq_one {a : Byte} (ha : a ≠ 0#8) : ∃ v, gfInv t a = .ok v ∧ gfMul t a v = 1 := by
  obtain ⟨i, rfl⟩ := exists_gfExp_eq ht ha
  refine ⟨_, gfInv_gfExp ht i, ?_⟩
  rw [gfMul_gfExp ht, ← h0]
  exact gfExp_congr t (by omega)

theorem gfMul_one (a : Byte) : gfMul t a 1 = a := by
  by_cases ha : a = 0#8
  · rw [ha, gfMul_zero_left]
  · obtain ⟨i, rfl⟩ := exists_gfExp_eq ht ha
    rw [← h0, gfMul_gfExp ht, Nat.add_zero]

end

/-- An entry of a table stands in the numbered list of the table's entries. A check over that list reads each entry
once. -/
theorem read_mem_zipIdx {n : Nat} (t : ByteTable n) (i : Nat) (h : i < n) : (t.read i h, i) ∈ t.entries.zipIdx := by
  simp [ByteTable.read, List.mk_mem_zipIdx_iff_getElem?, t.size_eq, h]

theorem gfExp_of_mem_logRom : ∀ p ∈ logRom.zipIdx, romTables.gfExp p.1.toNat = BitVec.ofNat 8 (p.2 + 1) := by
  decide +kernel

theorem logOf_of_mem_expRom : ∀ p ∈ expRom.zipIdx, ∃ h : p.1 ≠ 0#8, (romTables.logOf p.1 h).toNat = p.2 := by
  decide +kernel

/-- The tables of reset satisfy both equations of R102. -/
theorem romTables_inverse : romTables.Inverse := by
  refine ⟨fun v h => ?_, fun i hi => ?_⟩
  · have hpos : v.toNat ≠ 0 := fun e => h (BitVec.eq_of_toNat_eq e)
    have entry := gfExp_of_mem_logRom _ (read_mem_zipIdx romTables.log (v.toNat - 1) (by omega))
    rwa [Nat.sub_add_cancel (by omega), BitVec.ofNat_toNat, BitVec.setWidth_eq] at entry
  · obtain ⟨hne, hlog⟩ := logOf_of_mem_expRom _ (read_mem_zipIdx romTables.exp (i % 255) (Nat.mod_lt i (by decide)))
    exact ⟨hne, hlog.trans (Nat.mod_eq_of_lt hi)⟩

theorem romTables_gfExp_zero : romTables.gfExp 0 = 1 := rfl

/-! ## Multiplication by shift and reduce (R105)

Multiplication by x is linear, so it passes through the shift-and-reduce product; on the entries of `EXP` it is the step
to the next index. Both products then agree by induction on the index of the first factor. -/

theorem timesX_lt {a : Nat} (ha : a < 256) : Spec.timesX a < 256 := by
  revert a
  decide +kernel

/-- The reduction is an XOR that depends on bit 7 alone. -/
theorem timesX_eq_xor {a : Nat} (ha : a < 256) :
    Spec.timesX a = 2 * a ^^^ if a.testBit 7 then 0x11D else 0 := by
  have top : a.testBit 7 = true ↔ ¬ a < 128 := by
    rw [Nat.testBit_eq_decide_div_mod_eq, decide_eq_true_iff]
    omega
  simp only [Spec.timesX, top]
  split <;> simp [*]

theorem timesX_xor {a b : Nat} (ha : a < 256) (hb : b < 256) :
    Spec.timesX (a ^^^ b) = Spec.timesX a ^^^ Spec.timesX b := by
  have hab : a ^^^ b < 256 := Nat.xor_lt_two_pow (n := 8) ha hb
  have double : 2 * (a ^^^ b) = 2 * a ^^^ 2 * b := by
    simpa [Nat.shiftLeft_eq, Nat.mul_comm] using Nat.shiftLeft_xor_distrib (a := a) (b := b) (i := 1)
  have reduction (p q : Bool) :
      (if p ^^ q then 0x11D else 0) = (if p then 0x11D else 0) ^^^ if q then 0x11D else 0 := by
    cases p <;> cases q <;> rfl
  rw [timesX_eq_xor hab, timesX_eq_xor ha, timesX_eq_xor hb, Nat.testBit_xor, double, reduction]
  ac_rfl

theorem shiftAndReduce_lt (steps : Nat) {a : Nat} (ha : a < 256) (b : Nat) : Spec.shiftAndReduce steps a b < 256 := by
  induction steps generalizing a b with
  | zero => simp [Spec.shiftAndReduce]
  | succ steps ih =>
    refine Nat.xor_lt_two_pow (n := 8) ?_ (ih (timesX_lt ha) _)
    split
    · exact ha
    · decide

theorem shiftAndReduce_timesX (steps : Nat) {a : Nat} (ha : a < 256) (b : Nat) :
    Spec.shiftAndReduce steps (Spec.timesX a) b = Spec.timesX (Spec.shiftAndReduce steps a b) := by
  induction steps generalizing a b with
  | zero => rfl
  | succ steps ih =>
    have hrest := shiftAndReduce_lt steps (timesX_lt ha) (b / 2)
    rw [Spec.shiftAndReduce, Spec.shiftAndReduce, ih (timesX_lt ha)]
    split
    · rw [timesX_xor ha hrest]
    · rw [Nat.zero_xor, Nat.zero_xor]

theorem shiftAndReduce_zero_left (steps b : Nat) : Spec.shiftAndReduce steps 0 b = 0 := by
  induction steps generalizing b with
  | zero => rfl
  | succ steps ih => simp [Spec.shiftAndReduce, Spec.timesX, ih]

theorem shiftAndReduce_zero_right (steps a : Nat) : Spec.shiftAndReduce steps a 0 = 0 := by
  induction steps generalizing a with
  | zero => rfl
  | succ steps ih => simp [Spec.shiftAndReduce, ih]

/-- The shifts of 1 are the powers of x below the degree, so no step reduces. -/
theorem shiftAndReduce_one {b : Nat} (hb : b < 256) : Spec.shiftAndReduce 8 1 b = b := by
  revert b
  decide +kernel

theorem timesX_of_mem_expRom : ∀ p ∈ expRom.zipIdx, Spec.timesX p.1.toNat = (romTables.gfExp (p.2 + 1)).toNat := by
  decide +kernel

/-- Each entry of `EXP` times x is the next one, and the first follows the last (R101). -/
theorem timesX_gfExp (i : Nat) : Spec.timesX (romTables.gfExp i).toNat = (romTables.gfExp (i + 1)).toNat := by
  have entry := timesX_of_mem_expRom _ (read_mem_zipIdx romTables.exp (i % 255) (Nat.mod_lt i (by decide)))
  rwa [gfExp_congr romTables (Nat.mod_add_mod i 255 1)] at entry

theorem shiftAndReduce_gfExp (i j : Nat) :
    Spec.shiftAndReduce 8 (romTables.gfExp i).toNat (romTables.gfExp j).toNat = (romTables.gfExp (i + j)).toNat := by
  induction i with
  | zero => rw [romTables_gfExp_zero, Nat.zero_add]; exact shiftAndReduce_one (BitVec.isLt _)
  | succ i ih => rw [← timesX_gfExp, shiftAndReduce_timesX 8 (BitVec.isLt _), ih, timesX_gfExp, Nat.succ_add]

/-- The table multiplication is the shift-and-reduce product (R105). -/
theorem toNat_gfMul (a b : Byte) : (gfMul romTables a b).toNat = Spec.shiftAndReduce 8 a.toNat b.toNat := by
  by_cases ha : a = 0#8
  · simp [ha, shiftAndReduce_zero_left]
  · by_cases hb : b = 0#8
    · simp [hb, shiftAndReduce_zero_right]
    · obtain ⟨i, rfl⟩ := exists_gfExp_eq romTables_inverse ha
      obtain ⟨j, rfl⟩ := exists_gfExp_eq romTables_inverse hb
      rw [gfMul_gfExp romTables_inverse, shiftAndReduce_gfExp]

/-- Settles O23: GFMUL writes the table product, whose value is the shift-and-reduce product. -/
theorem multiplyIsThePolynomialProduct : Obligations.MultiplyIsThePolynomialProduct := by
  intro a b s hf htables
  rw [exec_gfmul hf, htables, ← toNat_gfMul, BitVec.ofNat_toNat, BitVec.setWidth_eq]

/-- Settles O25: the tables of reset are inverse to each other, so every law is one of indexes modulo 255. -/
theorem fieldLaws : Obligations.FieldLaws :=
  ⟨fun _ ha => exists_gfInv_gfMul_eq_one romTables_inverse romTables_gfExp_zero ha,
    gfMul_comm romTables,
    fun a _ hb => gfDiv_gfMul_cancel romTables_inverse a hb,
    fun a _ hb => gfDiv_eq_gfMul_gfInv romTables_inverse a hb,
    gfMul_one romTables_inverse romTables_gfExp_zero,
    fun n => by rw [gfPow_eq_gfExp, gfPow_eq_gfExp, gfExp_add_255],
    rfl⟩

/-! ## No step changes the tables (R23) -/

theorem tables_executeWord {w : Word} {s t : State} (h : executeWord w s = .next t) : t.tables = s.tables := by
  rw [executeWord] at h
  split at h
  · next i _ =>
    obtain ⟨-, -, htables, -⟩ := commandsLeaveInputsAndTables i s t h
    exact htables
  · cases h
    exact raiseError_tables ..

theorem tables_hostAct {act : HostAction} {s t : State} (h : hostAct act s = .next t) :
    t.tables = s.tables ∨ t.tables = romTables := by
  rcases hostAct_next h with rfl | ⟨a, rfl⟩ | ⟨a, v, hw⟩
  · exact .inr rfl
  · exact .inl rfl
  · rcases hostWrite_next hw with rfl | ⟨-, he⟩ | ⟨inp, len, rfl⟩
    · exact .inl rfl
    · exact .inl (tables_executeWord he)
    · exact .inl rfl

/-- Settles O26: a command and a host write keep the tables, and reset puts its own there. -/
theorem tablesAreInverseAndImmutable : Obligations.TablesAreInverseAndImmutable := by
  refine ⟨romTables_inverse, fun s t h => ?_⟩
  cases hp : s.pending with
  | nil =>
    cases (step_of_pending_nil hp).symm.trans h
    exact .inl rfl
  | cons act rest =>
    rw [step_of_pending_cons hp] at h
    exact tables_hostAct (s := { s with pending := rest }) h

/-! ## The statements about single commands -/

theorem aFieldOfAB_toNat (w : Word) : (aFieldOfAB w).toNat = w.toNat / 0x100 % 0x100 := by
  simp [aFieldOfAB, Nat.shiftRight_eq_div_pow]

/-- The value of a word of format AB (R63). -/
theorem encodeAB_toNat (op a b : Byte) :
    (encodeAB op a b).toNat = op.toNat * 0x1000000 + a.toNat * 256 + b.toNat := by
  have hop := opField_toNat (encodeAB op a b)
  have hzero := (zeroFieldOfAB_eq_zero_iff (encodeAB op a b)).mp (zeroFieldOfAB_encodeAB op a b)
  have ha := aFieldOfAB_toNat (encodeAB op a b)
  have hb := lowField_toNat (encodeAB op a b)
  rw [opField_encodeAB, Spec.opcode] at hop
  rw [aFieldOfAB_encodeAB] at ha
  rw [lowField_encodeAB] at hb
  omega

/-- Settles O21: both commands have a result for all operands. -/
theorem addAndSubtractAreXor : Obligations.AddAndSubtractAreXor := by
  refine fun a b s => ⟨fun hf => ⟨exec_gfadd hf a b, exec_gfsub hf a b⟩, encodeAB_toNat 0x01 a b,
    encodeAB_toNat 0x02 a b, ?_, ?_, ?_, rfl⟩
  · rintro rfl
    exact BitVec.xor_self
  · rintro rfl
    exact BitVec.zero_xor
  · rintro rfl
    exact BitVec.xor_zero

/-- Settles O22: GFMUL by the cases of its rule, GFPOW by its definition. -/
theorem multiplyAndPowerReadTheTables : Obligations.MultiplyAndPowerReadTheTables := by
  refine fun a b n s hf => ⟨?_, fun ha hb => ?_, exec_gfpow hf n⟩
  · rintro (rfl | rfl)
    · rw [exec_gfmul hf, gfMul_zero_left]; rfl
    · rw [exec_gfmul hf, gfMul_zero_right]; rfl
  · rw [exec_gfmul hf, gfMul_of_ne_zero s.tables ha hb]

/-- Settles O24: each case of the two rules with the way the command ends in it. -/
theorem divideAndInvert : Obligations.DivideAndInvert := by
  refine fun a b s hf => ⟨?_, ?_, fun ha hb => ?_, ?_, fun ha => ?_⟩
  · rintro rfl
    exact exec_gfdiv_of_error hf (gfDiv_zero_right s.tables a)
  · rintro hb rfl
    exact exec_gfdiv_of_ok hf (gfDiv_zero_left s.tables hb)
  · exact exec_gfdiv_of_ok hf (gfDiv_of_ne_zero s.tables ha hb)
  · rintro rfl
    exact exec_gfinv_of_error hf (gfInv_zero s.tables)
  · exact exec_gfinv_of_ok hf (gfInv_of_ne_zero s.tables ha)

end Sys2Proof.Machine

/-! SUPPORT and proofs for the statements of the family 41_bitstream.md: the codewords of the data segment, the input
checks of an encode, and the code units an encode does not read. -/

namespace Sys2Proof.Machine

/-! ## The data segment (R131, R134)

The mode indicator is half a codeword, so every later byte of the segment straddles two codewords: each codeword is the
lower half of one byte and the upper half of the next. -/

/-- The codeword whose upper half is the lower half of `a` and whose lower half is the upper half of `b`. -/
def straddle (a b : Byte) : Byte := BitVec.ofNat 8 (a.toNat % 16 * 16 + b.toNat / 16)

/-- The last four bits of `bits8 a`. -/
def lowerBits (a : Byte) : List Bool := (bits8 a).drop 4

theorem lowerBits_value (a : Byte) :
    (a.getLsbD 3).toNat * 8 + (a.getLsbD 2).toNat * 4 + (a.getLsbD 1).toNat * 2 + (a.getLsbD 0).toNat =
      a.toNat % 16 := by
  revert a
  decide +kernel

theorem upperBits_value (b : Byte) :
    (b.getLsbD 7).toNat * 8 + (b.getLsbD 6).toNat * 4 + (b.getLsbD 5).toNat * 2 + (b.getLsbD 4).toNat =
      b.toNat / 16 := by
  revert b
  decide +kernel

theorem codeword_eq_straddle (a b : Byte) :
    codeword (a.getLsbD 3) (a.getLsbD 2) (a.getLsbD 1) (a.getLsbD 0)
      (b.getLsbD 7) (b.getLsbD 6) (b.getLsbD 5) (b.getLsbD 4) = straddle a b := by
  rw [straddle, ← lowerBits_value a, ← upperBits_value b, codeword]
  congr 1
  omega

theorem codewords_lowerBits_bits8 (a b : Byte) (rest : List Bool) :
    codewords (lowerBits a ++ (bits8 b ++ rest)) = straddle a b :: codewords (lowerBits b ++ rest) := by
  rw [← codeword_eq_straddle]
  rfl

theorem codewords_lowerBits_terminator (a : Byte) (rest : List Bool) :
    codewords (lowerBits a ++ (terminator ++ rest)) = straddle a 0 :: codewords rest := by
  rw [← codeword_eq_straddle]
  rfl

/-- The codewords of half a codeword, whole bytes and the terminator. -/
theorem codewords_lowerBits_flatMap (a : Byte) (l : List Byte) (rest : List Bool) :
    codewords (lowerBits a ++ (l.flatMap bits8 ++ (terminator ++ rest))) =
      List.zipWith straddle (a :: l) (l ++ [0]) ++ codewords rest := by
  induction l generalizing a with
  | nil => exact codewords_lowerBits_terminator a rest
  | cons b l ih =>
    rw [List.flatMap_cons, List.append_assoc, codewords_lowerBits_bits8, ih]
    rfl

theorem length_segmentBeforePadding (data : List Byte) :
    (segmentBeforePadding data).length = 16 + 8 * data.length := by
  simp only [segmentBeforePadding, modeIndicator, terminator, List.length_append, length_flatMap_bits8, length_bits8,
    List.length_replicate, List.length_cons, List.length_nil]
  omega

theorem zeroPadding_segmentBeforePadding (data : List Byte) : zeroPadding (segmentBeforePadding data) = [] := by
  have whole : (8 - (16 + 8 * data.length) % 8) % 8 = 0 := by omega
  rw [zeroPadding, length_segmentBeforePadding, whole, List.replicate_zero]

theorem padCodewords_segment {n : Nat} (h : n ≤ 17) :
    padCodewords (16 + 8 * n) = ((List.range (17 - n)).map padCodeword).flatMap bits8 := by
  have count : (152 - (16 + 8 * n) + 7) / 8 = 17 - n := by omega
  rw [padCodewords, count, List.flatMap_map]

/-- The data segment is the segment before padding and the pad codewords that fill it (R134 items 1 and 3). -/
theorem bsEncode_eq {data : List Byte} (h : data.length ≤ 17) :
    bsEncode data = segmentBeforePadding data ++ ((List.range (17 - data.length)).map padCodeword).flatMap bits8 := by
  simp only [bsEncode, zeroPadding_segmentBeforePadding, List.append_nil, length_segmentBeforePadding,
    padCodewords_segment h]

theorem length_bsEncode {data : List Byte} (h : data.length ≤ 17) : (bsEncode data).length = 152 := by
  rw [bsEncode_eq h, List.length_append, length_segmentBeforePadding, length_flatMap_bits8, List.length_map,
    List.length_range]
  omega

/-- The count and the text, the bytes between the mode indicator and the terminator. -/
def countAndText (data : List Byte) : List Byte := BitVec.ofNat 8 data.length :: data

theorem segmentBeforePadding_eq (data : List Byte) :
    segmentBeforePadding data = lowerBits 4 ++ ((countAndText data).flatMap bits8 ++ terminator) :=
  List.append_assoc (modeIndicator ++ bits8 _) (data.flatMap bits8) terminator

theorem length_straddled (data : List Byte) :
    (List.zipWith straddle (4 :: countAndText data) (countAndText data ++ [0])).length = data.length + 2 := by
  simp [countAndText]

/-- The codewords of the data segment, all 19 at once (R134 item 4). -/
theorem codewords_bsEncode_eq {data : List Byte} (h : data.length ≤ 17) :
    codewords (bsEncode data) =
      List.zipWith straddle (4 :: countAndText data) (countAndText data ++ [0]) ++
        (List.range (17 - data.length)).map padCodeword := by
  rw [bsEncode_eq h, segmentBeforePadding_eq, List.append_assoc, List.append_assoc, codewords_lowerBits_flatMap,
    codewords_flatMap_bits8]

theorem getElem?_append_zero {l : List Byte} {i : Nat} (hi : i ≤ l.length) : (l ++ [0])[i]? = some (l.getD i 0) := by
  rcases hi.lt_or_eq with hlt | rfl
  · simp [List.getElem?_append_left, hlt]
  · simp

section
variable {data : List Byte} (h : data.length ≤ 17)
include h

theorem length_codewords_bsEncode : (codewords (bsEncode data)).length = 19 := by
  rw [codewords_bsEncode_eq h, List.length_append, length_straddled, List.length_map, List.length_range]
  omega

theorem toNat_ofNat_length : (BitVec.ofNat 8 data.length).toNat = data.length :=
  Nat.mod_eq_of_lt (by omega)

theorem bsEncode_first_codeword :
    (codewords (bsEncode data))[0]? = some (BitVec.ofNat 8 (0x40 + data.length / 16)) := by
  have mode : (codewords (bsEncode data))[0]? = some (straddle 4 (BitVec.ofNat 8 data.length)) := by
    rw [codewords_bsEncode_eq h]
    rfl
  rw [mode, straddle, toNat_ofNat_length h]
  rfl

/-- Byte `i` of the text, or the terminator after the last one, shares a codeword with the byte before it. -/
theorem bsEncode_text_codeword {i : Nat} (hi : i ≤ data.length) :
    (codewords (bsEncode data))[1 + i]? = some (straddle ((countAndText data).getD i 0) (data.getD i 0)) := by
  have before : (countAndText data)[i]? = some ((countAndText data).getD i 0) := by
    simp [List.getD, countAndText, Nat.lt_succ_of_le hi]
  have both : (List.zipWith straddle (countAndText data) (data ++ [0]))[i]? =
      some (straddle ((countAndText data).getD i 0) (data.getD i 0)) := by
    rw [List.getElem?_zipWith, before, getElem?_append_zero hi]
  rw [codewords_bsEncode_eq h, Nat.add_comm, List.getElem?_append_left, ← both]
  · rfl
  · rw [length_straddled]
    omega

theorem bsEncode_pad_codeword {t : Nat} (ht : t < 17 - data.length) :
    (codewords (bsEncode data))[2 + data.length + t]? = some (padCodeword t) := by
  have past : (List.zipWith straddle (4 :: countAndText data) (countAndText data ++ [0])).length ≤
      2 + data.length + t := by
    rw [length_straddled]
    omega
  have pad : 2 + data.length + t - (data.length + 2) = t := by omega
  rw [codewords_bsEncode_eq h, List.getElem?_append_right past, length_straddled, pad]
  simp [ht]

end

/-- Settles O27: the segment's length bit by bit, and each codeword as the two half bytes it holds. -/
theorem dataSegmentLayout : Obligations.DataSegmentLayout := by
  intro data h
  refine ⟨length_segmentBeforePadding data, zeroPadding_segmentBeforePadding data, length_bsEncode h,
    length_codewords_bsEncode h, rfl, bsEncode_first_codeword h, ?_, fun i hi hn => ?_, fun hn => ?_,
    fun t ht => bsEncode_pad_codeword h ht⟩
  · have count := bsEncode_text_codeword h (Nat.zero_le _)
    rwa [countAndText, List.getD_cons_zero, straddle, toNat_ofNat_length h] at count
  · obtain ⟨k, rfl⟩ := Nat.exists_eq_add_of_le' hi
    exact bsEncode_text_codeword h hn.le
  · obtain ⟨k, hk⟩ := Nat.exists_eq_add_of_le' hn
    have last := bsEncode_text_codeword h le_rfl
    rw [List.getD_eq_default data 0 le_rfl, hk] at last
    rw [hk]
    exact last

/-! ## The input checks (R132, R133) -/

theorem mem_inputUnits_iff {s : State} {u : BitVec Config.cpw} :
    u ∈ s.inputUnits ↔ ∃ j : Fin 17, j.val < s.len.toNat ∧ s.inp[j] = u := by
  simp only [State.inputUnits, List.mem_take_iff_getElem, Vector.length_toList, Vector.getElem_toList, lt_min_iff]
  constructor
  · rintro ⟨j, ⟨hlen, hmax⟩, e⟩
    exact ⟨⟨j, hmax⟩, hlen, e⟩
  · rintro ⟨j, hlen, e⟩
    exact ⟨j, ⟨hlen, j.isLt⟩, e⟩

theorem firstInvalid_inputUnits_eq_none_iff {s : State} :
    firstInvalid s.inputUnits = none ↔ ∀ j : Fin 17, j.val < s.len.toNat → s.inp[j].toNat ≤ 255 := by
  simp only [firstInvalid, List.findIdx?_eq_none_iff, mem_inputUnits_iff, decide_eq_false_iff_not, Nat.not_lt]
  constructor
  · exact fun h j hj => h _ ⟨j, hj, rfl⟩
  · rintro h _ ⟨j, hj, rfl⟩
    exact h j hj

/-- The lowest index below `LEN` that holds more than 255 is the one that is reported (R133). -/
theorem firstInvalid_inputUnits_eq_some {s : State} {k : Fin 17} (hk : k.val < s.len.toNat)
    (hbad : 255 < s.inp[k].toNat) (hlow : ∀ j : Fin 17, j.val < k.val → s.inp[j].toNat ≤ 255) :
    firstInvalid s.inputUnits = some k.val := by
  rw [firstInvalid, List.findIdx?_eq_some_iff_getElem]
  refine ⟨by simp [State.inputUnits, hk], ?_, fun j hj => ?_⟩
  · simpa [State.inputUnits] using hbad
  · simpa [State.inputUnits] using hlow ⟨j, by omega⟩ hj

section
variable {s : State}

theorem bsencBody_tooLong (h : 17 < s.len.toNat) : bsencBody s = .error ⟨.inputTooLong, s.len.setWidth 16⟩ := by
  rcases bsencBody_cases s with ⟨-, e⟩ | ⟨hl, -⟩ | ⟨hl, -⟩
  · exact e
  · omega
  · omega

theorem bsencBody_invalid (hl : s.len.toNat ≤ 17) {i : Nat} (h : firstInvalid s.inputUnits = some i) :
    bsencBody s = .error ⟨.invalidCharacter, BitVec.ofNat 16 i⟩ := by
  rcases bsencBody_cases s with ⟨hl', -⟩ | ⟨-, j, hj, e⟩ | ⟨-, hn, -⟩
  · omega
  · cases h.symm.trans hj
    exact e
  · cases h.symm.trans hn

theorem bsencBody_accepted (hl : s.len.toNat ≤ 17) (h : firstInvalid s.inputUnits = none) :
    bsencBody s = .ok { clearEncodeState s with
      dcw := registers Config.nData (codewords (bsEncode (inputBytes s.inputUnits)))
      stage := .data } := by
  rcases bsencBody_cases s with ⟨hl', -⟩ | ⟨-, i, hs, -⟩ | ⟨-, -, e⟩
  · omega
  · cases h.symm.trans hs
  · exact e

theorem bsencBody_valid (h : Spec.ValidInput s) :
    bsencBody s = .ok { clearEncodeState s with
      dcw := registers Config.nData (codewords (bsEncode (Spec.text s)))
      stage := .data } :=
  bsencBody_accepted h.1 (firstInvalid_inputUnits_eq_none_iff.mpr h.2)

/-- GENQR completes whenever its first part does: the other four raise nothing (R241). -/
theorem genqrBody_ok_of_bsencBody {d : State} (h : bsencBody s = .ok d) : ∃ t, genqrBody s = .ok t :=
  ⟨_, genqrBody_eq_ok_iff.mpr ⟨d, h, _, rfl, _, mxbuildBody_eq _, _, rfl, rfl⟩⟩

/-- An error with code 1 to 4 leaves the state R266 and R267 describe. -/
theorem raiseError_eq_aborted (w : Word) {r : Raise} (h : r.error.aborts = true) :
    raiseError w r s = Spec.aborted s r.error w r.info (r.error.isFatal || s.fatal) :=
  raiseError_aborts w r s h

/-- An error BSENC's pseudocode raises ends both commands that run it. -/
theorem exec_of_bsencBody_error {i : Instr} (hi : i = .bsenc ∨ i = .genqr) (hf : s.fatal = false) {r : Raise}
    (h : bsencBody s = .error r) (ha : r.error.aborts = true) (hn : r.error.isFatal = false) :
    exec i s = .next (Spec.aborted s r.error (encode i) r.info false) := by
  have run : exec i s = .next (raiseError (encode i) r s) := by
    rw [exec_eq_runCommand]
    rcases hi with rfl | rfl
    · exact runCommand_error _ _ s r hf rfl h
    · exact runCommand_error _ _ s r hf rfl (genqrBody_error s r h)
  rw [run, raiseError_eq_aborted _ ha, hn, hf]
  rfl

/-- Both commands complete on a valid input. -/
theorem exec_of_validInput {i : Instr} (hi : i = .bsenc ∨ i = .genqr) (hf : s.fatal = false)
    (h : Spec.ValidInput s) : ∃ t, exec i s = .next t ∧ t.err = none := by
  obtain ⟨t, ht⟩ : ∃ t, commandBody i s = .ok t := by
    rcases hi with rfl | rfl
    · exact ⟨_, bsencBody_valid h⟩
    · exact genqrBody_ok_of_bsencBody (bsencBody_valid h)
  have hn : need i s.stage = true := by
    rcases hi with rfl | rfl <;> rfl
  exact ⟨completed t, by rw [exec_eq_runCommand, runCommand_ok i _ s t hf hn ht], rfl⟩

end

/-- Settles O29: the length check, the character check at the lowest bad index, and a valid input passes both. -/
theorem badInputAbortsTheEncode : Obligations.BadInputAbortsTheEncode := by
  refine fun i s hi hf => ⟨fun hl => ?_, fun k hl hk hbad hlow => ?_, exec_of_validInput hi hf⟩
  · exact exec_of_bsencBody_error hi hf (bsencBody_tooLong hl) rfl rfl
  · have hfirst := firstInvalid_inputUnits_eq_some hk hbad hlow
    exact exec_of_bsencBody_error hi hf (bsencBody_invalid hl hfirst) rfl rfl

/-- Settles O28: BSENC's pseudocode on a valid input, and `ERR` <- 0. -/
theorem bsencWritesTheDataCodewords : Obligations.BsencWritesTheDataCodewords := by
  intro s hf h
  have completes := runCommand_ok .bsenc bsencBody s _ hf rfl (bsencBody_valid h)
  exact completes

/-! ## The code units an encode does not read (R133, R297)

Replacing `IN` commutes with each part of an encode: BSENC's part reads the code units below `LEN` only, and the others
read none. -/

/-- The state with `inp` in the `IN` registers. -/
def State.withInp (inp : Vector (BitVec Config.cpw) Config.maxLen) (s : State) : State := { s with inp }

/-- Replacing `IN` before the pseudocode is replacing it in the state the pseudocode leaves. -/
def CommutesWithInp (inp : Vector (BitVec Config.cpw) Config.maxLen) (body : State → Except Raise State)
    (s : State) : Prop :=
  body (s.withInp inp) = (body s).map (State.withInp inp)

section
variable {inp : Vector (BitVec Config.cpw) Config.maxLen}

theorem rseccBody_withInp (s : State) : CommutesWithInp inp rseccBody s := rfl

theorem mxbuildBody_withInp (s : State) : CommutesWithInp inp mxbuildBody s := by
  rw [CommutesWithInp, mxbuildBody_eq, mxbuildBody_eq]
  rfl

theorem maskselBody_withInp (s : State) : CommutesWithInp inp maskselBody s := rfl

theorem fmtwrBody_withInp (s : State) : CommutesWithInp inp fmtwrBody s := rfl

theorem andThen_withInp {body next : State → Except Raise State} {s : State} (hb : CommutesWithInp inp body s)
    (hn : ∀ t, CommutesWithInp inp next t) : CommutesWithInp inp (fun s => andThen (body s) next) s := by
  simp only [CommutesWithInp] at hb ⊢
  rw [hb]
  cases body s with
  | ok t => exact hn t
  | error r => rfl

theorem raiseError_withInp (w : Word) (r : Raise) (s : State) :
    raiseError w r (s.withInp inp) = (raiseError w r s).withInp inp := by
  rcases r with ⟨⟨⟩, _⟩ <;> rfl

theorem runCommand_withInp {i : Instr} {body : State → Except Raise State} {s : State}
    (h : CommutesWithInp inp body s) :
    ∃ t, runCommand i body s = .next t ∧ runCommand i body (s.withInp inp) = .next (t.withInp inp) := by
  rw [CommutesWithInp] at h
  rcases runCommand_cases i body s with ⟨hf, e⟩ | ⟨hf, hn, e⟩ | ⟨hf, hn, r, hb, e⟩ | ⟨hf, hn, t, hb, e⟩ <;>
    refine ⟨_, e, ?_⟩
  · exact runCommand_fatal i body _ hf
  · rw [← raiseError_withInp]
    exact runCommand_stageOrder i body _ hf hn
  · rw [← raiseError_withInp]
    exact runCommand_error i body _ r hf hn (by rw [h, hb]; rfl)
  · exact runCommand_ok i body _ (t.withInp inp) hf hn (by rw [h, hb]; rfl)

section
variable {s : State} (h : ∀ j : Fin 17, j.val < s.len.toNat → inp[j] = s.inp[j])
include h

theorem inputUnits_withInp : (s.withInp inp).inputUnits = s.inputUnits := by
  apply List.ext_getElem
  · simp [State.inputUnits, State.withInp]
  · intro j hj _
    have hj' : j < s.len.toNat ∧ j < 17 := by simpa [State.inputUnits, State.withInp] using hj
    simpa [State.inputUnits, State.withInp] using h ⟨j, hj'.2⟩ hj'.1

theorem bsencBody_withInp : CommutesWithInp inp bsencBody s := by
  rw [CommutesWithInp]
  rcases bsencBody_cases s with ⟨hl, e⟩ | ⟨hl, i, hi, e⟩ | ⟨hl, hi, e⟩ <;> rw [e]
  · exact bsencBody_tooLong (s := s.withInp inp) hl
  · exact bsencBody_invalid (s := s.withInp inp) hl (by rw [inputUnits_withInp h, hi])
  · rw [bsencBody_accepted (s := s.withInp inp) hl (by rw [inputUnits_withInp h, hi]), inputUnits_withInp h]
    rfl

theorem genqrBody_withInp : CommutesWithInp inp genqrBody s :=
  andThen_withInp (andThen_withInp (andThen_withInp (andThen_withInp (bsencBody_withInp h) rseccBody_withInp)
    mxbuildBody_withInp) maskselBody_withInp) fmtwrBody_withInp

end
end

/-- Settles O30: `IN` beyond the text is not read, so replacing it commutes with both commands. -/
theorem unusedCodeUnitsAreIgnored : Obligations.UnusedCodeUnitsAreIgnored := by
  intro i s inp hi h
  rw [exec_eq_runCommand, exec_eq_runCommand]
  apply runCommand_withInp
  rcases hi with rfl | rfl
  · exact bsencBody_withInp h
  · exact genqrBody_withInp h

end Sys2Proof.Machine

/-! SUPPORT and proofs for the statements of the family 42_reed_solomon.md: the field laws that polynomials need, the
value of a polynomial at a field element, the roots of the generator, the division, and the three commands. -/

namespace Sys2Proof.Machine

/-! ## Associativity and distributivity (R104, R105)

Associativity is one of indexes modulo 255, distributivity one of the shift-and-reduce product. -/

theorem gfMul_assoc {t : GfTables} (ht : t.Inverse) (a b c : Byte) :
    gfMul t (gfMul t a b) c = gfMul t a (gfMul t b c) := by
  by_cases ha : a = 0#8
  · simp [ha]
  by_cases hb : b = 0#8
  · simp [hb]
  by_cases hc : c = 0#8
  · simp [hc]
  obtain ⟨i, rfl⟩ := exists_gfExp_eq ht ha
  obtain ⟨j, rfl⟩ := exists_gfExp_eq ht hb
  obtain ⟨k, rfl⟩ := exists_gfExp_eq ht hc
  simp only [gfMul_gfExp ht, Nat.add_assoc]

theorem shiftAndReduce_xor (steps : Nat) {a b : Nat} (ha : a < 256) (hb : b < 256) (c : Nat) :
    Spec.shiftAndReduce steps (a ^^^ b) c = Spec.shiftAndReduce steps a c ^^^ Spec.shiftAndReduce steps b c := by
  induction steps generalizing a b c with
  | zero => simp [Spec.shiftAndReduce]
  | succ steps ih =>
    simp only [Spec.shiftAndReduce, timesX_xor ha hb, ih (timesX_lt ha) (timesX_lt hb)]
    split
    · ac_rfl
    · simp only [Nat.zero_xor]

theorem gfMul_gfAdd (a b c : Byte) :
    gfMul romTables (gfAdd a b) c = gfAdd (gfMul romTables a c) (gfMul romTables b c) := by
  apply BitVec.eq_of_toNat_eq
  simp only [gfAdd, BitVec.toNat_xor, toNat_gfMul]
  exact shiftAndReduce_xor 8 a.isLt b.isLt c.toNat

theorem gfMul_gfAdd_right (a b c : Byte) :
    gfMul romTables a (gfAdd b c) = gfAdd (gfMul romTables a b) (gfMul romTables a c) := by
  simp only [gfMul_comm romTables a, gfMul_gfAdd]

/-- `(a + b) + (c + d) = (a + c) + (b + d)`, in the order in which two sequences are added entry by entry. -/
theorem gfAdd_gfAdd_gfAdd_comm (a b c d : Byte) : gfAdd (gfAdd a b) (gfAdd c d) = gfAdd (gfAdd a c) (gfAdd b d) := by
  simp only [gfAdd]
  ac_rfl

@[simp] theorem gfAdd_zero (a : Byte) : gfAdd a 0#8 = a := BitVec.xor_zero

@[simp] theorem gfAdd_self (a : Byte) : gfAdd a a = 0#8 := BitVec.xor_self

/-! ## The value of a polynomial (R150) -/

/-- Horner's rule at `z`, after the coefficients whose value is `acc`. -/
def evaluateFrom (t : GfTables) (z acc : Byte) (p : List Byte) : Byte :=
  p.foldl (fun acc c => gfAdd (gfMul t acc z) c) acc

theorem evaluate_eq_evaluateFrom (t : GfTables) (p : List Byte) (z : Byte) :
    Spec.evaluate t p z = evaluateFrom t z 0#8 p := rfl

@[simp] theorem evaluateFrom_nil (t : GfTables) (z acc : Byte) : evaluateFrom t z acc [] = acc := rfl

@[simp] theorem evaluateFrom_cons (t : GfTables) (z acc c : Byte) (p : List Byte) :
    evaluateFrom t z acc (c :: p) = evaluateFrom t z (gfAdd (gfMul t acc z) c) p := rfl

/-- A leading zero does not change the value. -/
theorem evaluate_zero_cons (t : GfTables) (p : List Byte) (z : Byte) :
    Spec.evaluate t (0#8 :: p) z = Spec.evaluate t p z := by
  simp [evaluate_eq_evaluateFrom]

/-- `p ++ [0]` is `p(x) * x`. -/
theorem evaluate_append_zero (t : GfTables) (p : List Byte) (z : Byte) :
    Spec.evaluate t (p ++ [0#8]) z = gfMul t (Spec.evaluate t p z) z := by
  simp [Spec.evaluate]

theorem evaluate_replicate_zero (t : GfTables) (n : Nat) (z : Byte) :
    Spec.evaluate t (List.replicate n 0#8) z = 0#8 := by
  induction n with
  | zero => rfl
  | succ n ih => rw [List.replicate_succ, evaluate_zero_cons, ih]

theorem evaluateFrom_zipWith_gfAdd (z a b : Byte) {p q : List Byte} (h : p.length = q.length) :
    evaluateFrom romTables z (gfAdd a b) (List.zipWith gfAdd p q) =
      gfAdd (evaluateFrom romTables z a p) (evaluateFrom romTables z b q) := by
  induction p generalizing a b q with
  | nil => simp [List.length_eq_zero_iff.mp h.symm]
  | cons c p ih =>
    cases q with
    | nil => cases h
    | cons d q =>
      rw [List.zipWith_cons_cons, evaluateFrom_cons, evaluateFrom_cons, evaluateFrom_cons, gfMul_gfAdd,
        gfAdd_gfAdd_gfAdd_comm, ih _ _ (Nat.succ.inj h)]

/-- The value of a sum of two polynomials. -/
theorem evaluate_zipWith_gfAdd (z : Byte) {p q : List Byte} (h : p.length = q.length) :
    Spec.evaluate romTables (List.zipWith gfAdd p q) z =
      gfAdd (Spec.evaluate romTables p z) (Spec.evaluate romTables q z) :=
  evaluateFrom_zipWith_gfAdd z 0#8 0#8 h

theorem evaluateFrom_map_gfMul (z a c : Byte) (p : List Byte) :
    evaluateFrom romTables z (gfMul romTables a c) (p.map fun x => gfMul romTables x c) =
      gfMul romTables (evaluateFrom romTables z a p) c := by
  induction p generalizing a with
  | nil => rfl
  | cons x p ih =>
    have swap : gfMul romTables (gfMul romTables a c) z = gfMul romTables (gfMul romTables a z) c := by
      simp only [gfMul_assoc romTables_inverse, gfMul_comm romTables c]
    rw [List.map_cons, evaluateFrom_cons, evaluateFrom_cons, swap, ← gfMul_gfAdd, ih]

/-- The value of a scaled polynomial. -/
theorem evaluate_map_gfMul (z c : Byte) (p : List Byte) :
    Spec.evaluate romTables (p.map fun x => gfMul romTables x c) z =
      gfMul romTables (Spec.evaluate romTables p z) c := by
  have scaled := evaluateFrom_map_gfMul z 0#8 c p
  rwa [gfMul_zero_left] at scaled

theorem evaluateFrom_xorInto (z a b : Byte) {m v : List Byte} (hlen : v.length ≤ m.length)
    (hv : evaluateFrom romTables z b v = 0#8) :
    evaluateFrom romTables z (gfAdd a b) (xorInto m v) = evaluateFrom romTables z a m := by
  induction m generalizing a b v with
  | nil =>
    obtain rfl := List.length_eq_zero_iff.mp (Nat.le_zero.mp hlen)
    obtain rfl : b = 0#8 := hv
    simp [xorInto]
  | cons c m ih =>
    cases v with
    | nil =>
      obtain rfl : b = 0#8 := hv
      simp [xorInto]
    | cons d v =>
      rw [xorInto, evaluateFrom_cons, evaluateFrom_cons, gfMul_gfAdd, gfAdd_gfAdd_gfAdd_comm]
      exact ih _ _ (Nat.le_of_succ_le_succ hlen) hv

/-- XORing a polynomial with root `z`, times a power of x, into a message does not change the message's value at `z`. -/
theorem evaluate_xorInto {z : Byte} {m v : List Byte} (hlen : v.length ≤ m.length)
    (hv : Spec.evaluate romTables v z = 0#8) :
    Spec.evaluate romTables (xorInto m v) z = Spec.evaluate romTables m z :=
  evaluateFrom_xorInto z 0#8 0#8 hlen hv

/-! ## The generator polynomial (R151) -/

/-- `timesLinear p a` is the polynomial `p` times `x + a`. -/
theorem evaluate_timesLinear (p : List Byte) (a z : Byte) :
    Spec.evaluate romTables (timesLinear romTables p a) z =
      gfMul romTables (Spec.evaluate romTables p z) (gfAdd z a) := by
  rw [timesLinear, BitVec.ofNat_eq_ofNat, evaluate_zipWith_gfAdd z (by simp), evaluate_append_zero, evaluate_zero_cons,
    evaluate_map_gfMul, gfMul_gfAdd_right]

theorem timesLinear_leading {t : GfTables} {p : List Byte} {a c : Byte} (h : p[0]? = some c) :
    (timesLinear t p a)[0]? = some c := by
  obtain ⟨p, rfl⟩ : ∃ q, p = c :: q := by
    cases p with
    | nil => cases h
    | cons b q => exact ⟨q, congrArg (· :: q) (Option.some.inj h)⟩
  exact congrArg some (gfAdd_zero c)

theorem timesLinear_constantTerm {t : GfTables} {p : List Byte} {a c : Byte} {n : Nat} (hlen : p.length = n + 1)
    (h : p[n]? = some c) : (timesLinear t p a)[n + 1]? = some (gfMul t c a) := by
  refine List.getElem?_zipWith_eq_some.mpr ⟨0#8, gfMul t c a, ?_, ?_, BitVec.zero_xor⟩
  · rw [← hlen, List.getElem?_concat_length]
    rfl
  · rw [List.getElem?_cons_succ, List.getElem?_map, h, Option.map_some]

theorem evaluate_rsGen {i n : Nat} (h : i < n) :
    Spec.evaluate romTables (rsGen romTables n) (gfPow romTables i) = 0#8 := by
  induction n with
  | zero => exact absurd h (Nat.not_lt_zero i)
  | succ n ih =>
    rw [rsGen, evaluate_timesLinear]
    rcases Nat.lt_succ_iff_lt_or_eq.mp h with hlt | rfl
    · rw [ih hlt, gfMul_zero_left]
    · rw [gfAdd_self, gfMul_zero_right]

theorem rsGen_monic (t : GfTables) (n : Nat) : (rsGen t n)[0]? = some 1 := by
  induction n with
  | zero => rfl
  | succ n ih => exact timesLinear_leading ih

theorem rsGen_constantTerm (n : Nat) : (rsGen romTables n)[n]? = some (gfPow romTables (n * (n - 1) / 2)) := by
  induction n with
  | zero => rfl
  | succ n ih =>
    rw [rsGen, timesLinear_constantTerm (length_rsGen romTables n) ih, Nat.triangle_succ]
    simp only [gfPow_eq_gfExp, gfMul_gfExp romTables_inverse]

/-- Settles O32: multiplication by `x + α^i` keeps the roots, adds one, and multiplies the constant term by α^i. -/
theorem generatorHasConsecutiveRoots : Obligations.GeneratorHasConsecutiveRoots :=
  fun n => ⟨length_rsGen romTables n, rsGen_monic romTables n, fun _ hi => evaluate_rsGen hi, rsGen_constantTerm n⟩

/-- The hardware's constant is the generator of degree 7 (R152). -/
theorem g7_eq_rsGen : g7 = rsGen romTables 7 := by decide +kernel

/-! ## The division (R153) -/

/-- Settles O33: the ECC is XORed into entries that no step divides away, where it meets itself. -/
theorem reDivisionLeavesZero : Obligations.ReDivisionLeavesZero := rsRemainder_append_rsEcc

@[simp] theorem xorInto_nil (v : List Byte) : xorInto [] v = [] := by
  cases v <;> rfl

theorem xorInto_zeros (m v : List Byte) : xorInto m (v.map fun _ => 0#8) = m := by
  induction m generalizing v with
  | nil => cases v <;> rfl
  | cons c m ih =>
    cases v with
    | nil => rfl
    | cons a v => rw [List.map_cons, xorInto, gfAdd_zero, ih]

/-- The test `c ≠ 0` of a step changes no result: with the factor 0 only zeros are XORed into the message. -/
theorem divideStep_cons (t : GfTables) (g : List Byte) (c : Byte) (m : List Byte) :
    divideStep t g (c :: m) = xorInto (c :: m) (g.map fun x => gfMul t x c) := by
  rw [divideStep]
  split
  · next hc => simp only [hc, gfMul_zero_right, xorInto_zeros]
  · rfl

theorem rsDivide_succ {t : GfTables} {g m rest : List Byte} {c : Byte} (steps : Nat)
    (h : divideStep t g m = c :: rest) : rsDivide t g (steps + 1) m = c :: rsDivide t g steps rest := by
  rw [rsDivide, h]

/-- A step of the division by a monic polynomial cancels the leading entry. -/
theorem exists_divideStep_eq_zero_cons (g : List Byte) (c : Byte) (m : List Byte) :
    ∃ rest, divideStep romTables (1 :: g) (c :: m) = 0#8 :: rest := by
  have leading : gfMul romTables 1 c = c := by
    rw [gfMul_comm, gfMul_one romTables_inverse romTables_gfExp_zero]
  exact ⟨_, by rw [divideStep_cons, List.map_cons, leading, xorInto, gfAdd_self]⟩

theorem evaluate_divideStep {z : Byte} {g m : List Byte} (hg : Spec.evaluate romTables g z = 0#8)
    (hlen : g.length ≤ m.length) :
    Spec.evaluate romTables (divideStep romTables g m) z = Spec.evaluate romTables m z := by
  cases m with
  | nil => rfl
  | cons c m =>
    rw [divideStep_cons]
    refine evaluate_xorInto (by simpa using hlen) ?_
    rw [evaluate_map_gfMul, hg, gfMul_zero_left]

/-- At a root of the monic divisor the remainder has the value of the message. -/
theorem evaluate_drop_rsDivide {z : Byte} {g : List Byte} (hg : Spec.evaluate romTables (1 :: g) z = 0#8) (steps : Nat)
    {m : List Byte} (hlen : steps + g.length ≤ m.length) :
    Spec.evaluate romTables ((rsDivide romTables (1 :: g) steps m).drop steps) z = Spec.evaluate romTables m z := by
  induction steps generalizing m with
  | zero => rfl
  | succ steps ih =>
    cases m with
    | nil => simp at hlen
    | cons c m =>
      obtain ⟨rest, hstep⟩ := exists_divideStep_eq_zero_cons g c m
      have hrest : rest.length = m.length := by
        simpa using (congrArg List.length hstep).symm
      have hm : steps + g.length ≤ m.length := by
        rw [List.length_cons] at hlen
        omega
      calc Spec.evaluate romTables ((rsDivide romTables (1 :: g) (steps + 1) (c :: m)).drop (steps + 1)) z
          = Spec.evaluate romTables ((rsDivide romTables (1 :: g) steps rest).drop steps) z := by
            rw [rsDivide_succ steps hstep, List.drop_succ_cons]
        _ = Spec.evaluate romTables rest z := ih (hrest ▸ hm)
        _ = Spec.evaluate romTables (c :: m) z := by
            rw [← evaluate_zero_cons, ← hstep, evaluate_divideStep hg (by simp; omega)]

/-- At a power of α below 7 the remainder of 26 codewords has the value of the codewords' polynomial. -/
theorem evaluate_rsRemainder {m : List Byte} (hm : m.length = 26) {i : Nat} (hi : i < 7) :
    Spec.evaluate romTables (rsRemainder romTables m) (gfPow romTables i) =
      Spec.evaluate romTables m (gfPow romTables i) := by
  have root : Spec.evaluate romTables g7 (gfPow romTables i) = 0#8 := by rw [g7_eq_rsGen, evaluate_rsGen hi]
  exact evaluate_drop_rsDivide root 19 hm.ge

/-- Settles O34: the remainder of the codeword is zero, and it has the codeword's value at the roots of `G7`. -/
theorem codewordVanishesAtTheRoots : Obligations.CodewordVanishesAtTheRoots := by
  intro d hd i hi
  have hlen : (d ++ rsEcc romTables d).length = 26 := by simp [hd]
  rw [← evaluate_rsRemainder hlen hi, rsRemainder_append_rsEcc _ _ hd]
  exact evaluate_replicate_zero ..

/-! ## Linearity of the code (R154)

The factor of a step on a sum is the sum of the factors, so a step, the division and the code are additive. -/

theorem xorInto_zipWith_zipWith {m n u v : List Byte} (hm : m.length = n.length) (hu : u.length = v.length) :
    xorInto (List.zipWith gfAdd m n) (List.zipWith gfAdd u v) = List.zipWith gfAdd (xorInto m u) (xorInto n v) := by
  induction m generalizing n u v with
  | nil => simp
  | cons c m ih =>
    cases n with
    | nil => cases hm
    | cons d n =>
      cases u with
      | nil => simp [xorInto, List.length_eq_zero_iff.mp hu.symm]
      | cons a u =>
        cases v with
        | nil => cases hu
        | cons b v =>
          simp only [List.zipWith_cons_cons, xorInto, ih (Nat.succ.inj hm) (Nat.succ.inj hu), gfAdd_gfAdd_gfAdd_comm]

theorem divideStep_zipWith_cons (g : List Byte) (c d : Byte) {m n : List Byte} (h : m.length = n.length) :
    divideStep romTables g (List.zipWith gfAdd (c :: m) (d :: n)) =
      List.zipWith gfAdd (divideStep romTables g (c :: m)) (divideStep romTables g (d :: n)) := by
  have factors : (g.map fun x => gfMul romTables x (gfAdd c d)) =
      List.zipWith gfAdd (g.map fun x => gfMul romTables x c) (g.map fun x => gfMul romTables x d) := by
    simp [List.zipWith_map, List.zipWith_self, gfMul_gfAdd_right]
  rw [List.zipWith_cons_cons, divideStep_cons, divideStep_cons, divideStep_cons, factors, ← List.zipWith_cons_cons,
    xorInto_zipWith_zipWith (by simp [h]) (by simp)]

theorem exists_divideStep_eq_cons (t : GfTables) (g : List Byte) (c : Byte) (m : List Byte) :
    ∃ c' m', divideStep t g (c :: m) = c' :: m' ∧ m'.length = m.length := by
  obtain ⟨c', m', h⟩ := List.exists_cons_of_length_eq_add_one (length_divideStep t g (c :: m))
  exact ⟨c', m', h, by simpa using (congrArg List.length h).symm⟩

/-- The division of a sum is the sum of the divisions. -/
theorem rsDivide_zipWith (g : List Byte) (steps : Nat) {m n : List Byte} (h : m.length = n.length) :
    rsDivide romTables g steps (List.zipWith gfAdd m n) =
      List.zipWith gfAdd (rsDivide romTables g steps m) (rsDivide romTables g steps n) := by
  induction steps generalizing m n with
  | zero => rfl
  | succ steps ih =>
    cases m with
    | nil => simp [rsDivide, divideStep]
    | cons c m =>
      cases n with
      | nil => cases h
      | cons d n =>
        obtain ⟨c', m', hc, hm⟩ := exists_divideStep_eq_cons romTables g c m
        obtain ⟨d', n', hd, hn⟩ := exists_divideStep_eq_cons romTables g d n
        have hsum : divideStep romTables g (List.zipWith gfAdd (c :: m) (d :: n)) =
            gfAdd c' d' :: List.zipWith gfAdd m' n' := by
          rw [divideStep_zipWith_cons g c d (Nat.succ.inj h), hc, hd, List.zipWith_cons_cons]
        rw [rsDivide_succ steps hsum, rsDivide_succ steps hc, rsDivide_succ steps hd, List.zipWith_cons_cons,
          ih (hm.trans ((Nat.succ.inj h).trans hn.symm))]

theorem rsEcc_zipWith {d e : List Byte} (h : d.length = e.length) :
    rsEcc romTables (List.zipWith gfAdd d e) = List.zipWith gfAdd (rsEcc romTables d) (rsEcc romTables e) := by
  have padded : List.zipWith gfAdd d e ++ List.replicate 7 0 =
      List.zipWith gfAdd (d ++ List.replicate 7 0) (e ++ List.replicate 7 0) := by
    rw [List.zipWith_append h, zipWith_gfAdd_self, List.length_replicate]
  rw [rsEcc, rsEcc, rsEcc, padded, rsDivide_zipWith g7 _ (by simp [h]), List.drop_zipWith]

/-- Settles O35: zeros are the sum of a text's codewords with themselves, so linearity gives their code too. -/
theorem eccIsLinear : Obligations.EccIsLinear := by
  refine ⟨fun d e hd he => rsEcc_zipWith (hd.trans he.symm), ?_⟩
  have hsum := rsEcc_zipWith (d := List.replicate 19 0) rfl
  rwa [zipWith_gfAdd_self, zipWith_gfAdd_self, length_rsEcc _ _ List.length_replicate, List.length_replicate] at hsum

/-! ## The commands (R155, R156, R158) -/

section
variable {s : State} (hf : s.fatal = false)
include hf

/-- A command that may run and whose pseudocode raises nothing completes. -/
theorem exec_of_commandBody_ok (i : Instr) {t : State} (hn : need i s.stage = true) (hb : commandBody i s = .ok t) :
    exec i s = .next (completed t) := by
  rw [exec_eq_runCommand, runCommand_ok i _ s t hf hn hb]

/-- A command outside its stages records StageOrder with `STAGE` and changes nothing else (R243, R265). -/
theorem exec_of_need_eq_false {i : Instr} (hn : need i s.stage = false) :
    exec i s = .next (Spec.outOfOrder s (encode i)) := by
  have info : s.stage.code.setWidth 16 = (Spec.outOfOrder s (encode i)).errInfo := by
    rw [Spec.outOfOrder, Spec.recorded]
    cases s.stage <;> rfl
  rw [exec_eq_runCommand, runCommand_stageOrder i _ s hf hn, raiseError_protocol _ _ _ rfl, info]
  rfl

theorem exec_rschk (hn : need .rschk s.stage = true) :
    exec .rschk s = .next { s with
      rem := registers 7 (rsRemainder s.tables (s.dcw.toList ++ s.ecc.toList)), err := none } :=
  exec_of_commandBody_ok hf .rschk hn rfl

end

/-- Settles O37: the state RSCHK leaves meets the invariant again, by which its `REM` is zero. -/
theorem rschkLeavesAZeroRemainder : Obligations.RschkLeavesAZeroRemainder := by
  refine fun s hf => ⟨fun hidle hdata => ?_, fun hs => ?_⟩
  · have hn : need .rschk s.stage = true := by
      cases hs : s.stage <;> simp [need, hs] at hidle hdata ⊢
    exact ⟨exec_rschk hf hn, fun hinv => (inv_exec hinv (exec_rschk hf hn)).rem_zero⟩
  · exact exec_of_need_eq_false hf (by rcases hs with hs | hs <;> rw [hs] <;> rfl)

/-- The eight generators that R151 lists. -/
theorem registers_rsGen_eq_generatorRows :
    ∀ n : Fin 8, registers 8 (rsGen romTables n.val) = Spec.generatorRows[n] := by
  decide +kernel

/-- The value of a word of format A (R62): it is the word of format AB with first operand 0. -/
theorem encodeA_toNat (op a : Byte) : (encodeA op a).toNat = op.toNat * 0x1000000 + a.toNat := by
  have asAB : encodeA op a = encodeAB op 0 a := by
    rw [encodeA_eq_encodeN, encodeAB_eq_encodeN]
    rfl
  simpa [asAB] using encodeAB_toNat op 0 a

/-- The word of RSGEN with a degree above 7 selects no row (R67). -/
theorem illegal_rsgen {n : Byte} (h : 7 < n.toNat) : Spec.Illegal (encode (.rsgen n)) := by
  have value : (encode (.rsgen n)).toNat = 0x11000000 + n.toNat := encodeA_toNat 0x11 n
  have hn := n.isLt
  have opcode : Spec.opcode (encode (.rsgen n)) = 0x11 := by
    rw [Spec.opcode, value]
    omega
  exact .inr (.inr (.inr (.inr ⟨opcode, by omega⟩)))

/-- Settles O31: the pseudocode of a legal degree, the eight generators, and the illegal words of R67. -/
theorem rsgenWritesTheGenerator : Obligations.RsgenWritesTheGenerator := by
  refine fun n s hf => ⟨fun h => ?_, fun h htables => ?_, fun h => ?_, encodeA_toNat 0x11 n⟩
  · exact exec_of_commandBody_ok hf (.rsgen n) rfl (rsgenBody_ok n s (Nat.le_of_lt_succ h))
  · rw [htables]
    exact registers_rsGen_eq_generatorRows ⟨n.toNat, h⟩
  · exact (illegalWordRaisesIllegalCommand _ s).2 (illegal_rsgen h) hf

/-- The example of R156: the data codewords of the text "A". -/
theorem rsEcc_example :
    registers 7 (rsEcc romTables [0x40, 0x14, 0x10, 0xEC, 0x11, 0xEC, 0x11, 0xEC, 0x11, 0xEC, 0x11, 0xEC, 0x11, 0xEC,
      0x11, 0xEC, 0x11, 0xEC, 0x11]) = #v[0x52, 0x4B, 0xB5, 0x3B, 0xAF, 0x8D, 0xF1] := by
  decide +kernel

/-- Settles O36: RSECC's pseudocode in its one stage, and StageOrder in the others. -/
theorem rseccWritesTheEcc : Obligations.RseccWritesTheEcc := by
  refine fun s hf => ⟨fun hs => ?_, fun hs => ?_, fun htables hdcw => ?_⟩
  · exact exec_of_commandBody_ok hf .rsecc (by simp [need, hs]) rfl
  · exact exec_of_need_eq_false hf (by simp [need, hs])
  · rw [htables, hdcw]
    exact rsEcc_example

end Sys2Proof.Machine

/-! SUPPORT and proofs for the statements of the family 43_matrix.md: the function flags of steps 1 to 5, the order of the
scan, and what the placement writes on each cell. -/

namespace Sys2Proof.Machine

/-! ## The function flags (R172 to R177, R181)

Each of the steps 1 to 5 adds flags and removes none, so the flagged cells are those the steps name, in any order: a dark
module on a cell that another step names flags nothing of its own. -/

/-- The cells that the steps 1, 2, 3 and 5 make function modules; step 4 adds the dark module. -/
def patternCells : List (Nat × Nat) := (finderPatterns ++ separators ++ timingPatterns).map Prod.fst ++ formatStrips

section
variable {x y : Nat} (hx : x < Config.side) (hy : y < Config.side)
include hx hy

theorem get_set_true_iff (p : Plane) (c : Nat × Nat) :
    (p.set c.1 c.2 true).get x y = true ↔ (x, y) = c ∨ p.get x y = true := by
  by_cases h : (x, y) = c
  · subst h
    simp [get_set_self, hx, hy]
  · simp [get_set_other _ _ _ _ _ _ h, h]

theorem get_func_mark (g : Grid) (cells : List ((Nat × Nat) × Bool)) :
    (g.mark cells).func.get x y = true ↔ g.func.get x y = true ∨ (x, y) ∈ cells.map Prod.fst := by
  induction cells generalizing g with
  | nil => simp [Grid.mark]
  | cons c rest ih =>
    rw [Grid.mark, ih, get_set_true_iff hx hy, List.map_cons, List.mem_cons, or_comm (a := (x, y) = _), or_assoc]

theorem get_func_reserve (g : Grid) (cells : List (Nat × Nat)) :
    (g.reserve cells).func.get x y = true ↔ g.func.get x y = true ∨ (x, y) ∈ cells := by
  induction cells generalizing g with
  | nil => simp [Grid.reserve]
  | cons c rest ih =>
    rw [Grid.reserve, ih, get_set_true_iff hx hy, List.mem_cons, or_comm (a := (x, y) = _), or_assoc]

/-- The function modules for a dark module anywhere (R172 to R176). -/
theorem get_functionPatterns (dark : Nat × Nat) :
    (functionPatterns dark).func.get x y = true ↔ (x, y) = dark ∨ (x, y) ∈ patternCells := by
  simp only [functionPatterns, get_func_reserve hx hy, get_func_mark hx hy, gridInit, get_clear, patternCells,
    List.map_append, List.map_cons, List.map_nil, List.mem_append, List.mem_singleton]
  tauto

end

theorem lt_of_get {p : Plane} {x y : Nat} (h : p.get x y = true) : x < Config.side ∧ y < Config.side := by
  by_cases hy : y < Config.side
  · rw [Plane.get, dif_pos hy] at h
    exact ⟨BitVec.lt_of_getLsbD h, hy⟩
  · simp [Plane.get, hy] at h

/-- A dark module on a cell that another step names leaves the flags that this other step gives. -/
theorem func_functionPatterns_of_mem {d e : Nat × Nat} (hd : d ∈ patternCells) (he : e ∈ patternCells) :
    (functionPatterns d).func = (functionPatterns e).func := by
  refine plane_ext fun x hx y hy => Bool.eq_iff_iff.mpr ?_
  have absorbed {c : Nat × Nat} (hc : c ∈ patternCells) :
      ((x, y) = c ∨ (x, y) ∈ patternCells) ↔ (x, y) ∈ patternCells :=
    or_iff_right_of_imp fun h => h ▸ hc
  rw [get_functionPatterns hx hy, get_functionPatterns hx hy, absorbed hd, absorbed he]

/-- The two pictures of R177. -/
theorem functionPatterns_darkModule : functionPatterns darkModule = ⟨Spec.patternPlane, Spec.functionPlane⟩ := by
  decide +kernel

/-- Settles O38: the two pictures evaluated, with the counts of their cells. -/
theorem functionPatternPictures : Obligations.FunctionPatternPictures := by
  refine ⟨functionPatterns_darkModule, by decide +kernel, ?_⟩
  have count := countZero_functionPatterns
  rwa [functionPatterns_darkModule] at count

theorem mem_patternCells {x y : Nat} (hdark : (x, y) ≠ darkModule) (h : Spec.functionPlane.get x y = true) :
    (x, y) ∈ patternCells := by
  obtain ⟨hx, hy⟩ := lt_of_get h
  have named := get_functionPatterns hx hy darkModule
  rw [functionPatterns_darkModule] at named
  exact (named.mp h).resolve_left hdark

/-- One module fewer than QR1L's is a function module when the dark module falls on the corner of a finder pattern. -/
theorem countZero_functionPatterns_corner : (functionPatterns (0, 0)).func.countZero = 209 := by decide +kernel

/-- A number of non-function modules other than 208 is reported before a bit is placed (R181). -/
theorem mxbuildWith_eq_error {dark : Nat × Nat} (s : State) {n : Nat} (hcount : (functionPatterns dark).func.countZero = n)
    (hn : n ≠ Config.nBits) : mxbuildWith dark s = .error ⟨.placementInvariantViolation, BitVec.ofNat 16 n⟩ := by
  subst hcount
  exact if_pos hn

/-- Settles O41: the flags are those of a dark module on a finder pattern's corner, and these leave 209 modules. -/
theorem collidingDarkModuleIsAViolation : Obligations.CollidingDarkModuleIsAViolation := by
  intro s x y hdark hfunc
  have collides : (x, y) ∈ patternCells := mem_patternCells hdark hfunc
  have corner : (0, 0) ∈ patternCells := by decide +kernel
  have count : (functionPatterns (x, y)).func.countZero = 209 := by
    rw [func_functionPatterns_of_mem collides corner, countZero_functionPatterns_corner]
  exact mxbuildWith_eq_error s count (by decide)

/-! ## The order of the scan (R179, R180) -/

theorem mem_scanRows {up : Bool} {y : Nat} : y ∈ scanRows up ↔ y < Config.side := by
  cases up <;> simp [scanRows]

theorem nodup_scanRows (up : Bool) : (scanRows up).Nodup := by
  cases up <;> simp [scanRows, List.nodup_range]

/-- The cells of the column pair with right column `right`, as the scan passes them (R179). -/
def scanPair (up : Bool) (right : Nat) : List (Nat × Nat) :=
  (scanRows up).flatMap fun y => [(right, y), (right - 1, y)]

theorem scanFrom_cons (up : Bool) (right : Nat) (rest : List Nat) :
    scanFrom up (right :: rest) = scanPair up right ++ scanFrom (!up) rest := rfl

theorem mem_scanPair {up : Bool} {right x y : Nat} :
    (x, y) ∈ scanPair up right ↔ y < Config.side ∧ (x = right ∨ x = right - 1) := by
  simp only [scanPair, List.mem_flatMap, mem_scanRows, List.mem_cons, Prod.mk.injEq, List.not_mem_nil, or_false]
  constructor
  · rintro ⟨_, hy, ⟨hx, rfl⟩ | ⟨hx, rfl⟩⟩
    · exact ⟨hy, .inl hx⟩
    · exact ⟨hy, .inr hx⟩
  · rintro ⟨hy, hx | hx⟩
    · exact ⟨y, hy, .inl ⟨hx, rfl⟩⟩
    · exact ⟨y, hy, .inr ⟨hx, rfl⟩⟩

/-- The scan passes every row of the columns of its pairs. -/
theorem mem_scanFrom {up : Bool} {columns : List Nat} {x y : Nat} :
    (x, y) ∈ scanFrom up columns ↔ y < Config.side ∧ ∃ right ∈ columns, x = right ∨ x = right - 1 := by
  induction columns generalizing up with
  | nil => simp [scanFrom]
  | cons right rest ih =>
    rw [scanFrom_cons, List.mem_append, mem_scanPair, ih, ← and_or_left]
    simp only [List.mem_cons, exists_eq_or_imp]

theorem nodup_scanPair (up : Bool) {right : Nat} (h : 0 < right) : (scanPair up right).Nodup := by
  refine List.nodup_flatMap.mpr ⟨fun y _ => ?_, (nodup_scanRows up).imp fun hne => ?_⟩
  · have columns : right ≠ right - 1 := by omega
    simp [columns]
  · simp [Function.onFun, Ne.symm hne]

/-- A scan of column pairs that do not overlap passes no cell twice. -/
theorem nodup_scanFrom (up : Bool) {columns : List Nat} (hpos : ∀ right ∈ columns, 0 < right)
    (hapart : columns.Pairwise fun a b => b + 1 < a) : (scanFrom up columns).Nodup := by
  induction columns generalizing up with
  | nil => exact List.nodup_nil
  | cons right rest ih =>
    obtain ⟨hright, hrest⟩ := List.forall_mem_cons.mp hpos
    obtain ⟨hfar, hapart⟩ := List.pairwise_cons.mp hapart
    refine List.nodup_append'.mpr ⟨nodup_scanPair up hright, ih _ hrest hapart, ?_⟩
    rintro ⟨x, y⟩ hpair hlater
    obtain ⟨-, hx⟩ := mem_scanPair.mp hpair
    obtain ⟨-, later, hmem, hx'⟩ := mem_scanFrom.mp hlater
    have := hfar later hmem
    omega

theorem nodup_scanOrder : scanOrder.Nodup := nodup_scanFrom true (by decide) (by decide)

/-- The column pairs are all columns but the timing column. -/
theorem exists_rightColumn : ∀ x < 21, x = 6 ∨ ∃ right ∈ rightColumns, x = right ∨ x = right - 1 := by decide

/-- The timing column holds function modules only. -/
theorem functionPlane_column6 : ∀ y < 21, Spec.functionPlane.get 6 y = true := by decide +kernel

theorem filter_scanOrder : (scanOrder.filter fun c => !Spec.functionPlane.get c.1 c.2) = Spec.place := by decide +kernel

theorem nodup_place : Spec.place.Nodup := filter_scanOrder ▸ nodup_scanOrder.filter _

theorem mem_place_iff {c : Nat × Nat} : c ∈ Spec.place ↔ c ∈ scanOrder ∧ Spec.functionPlane.get c.1 c.2 = false := by
  rw [← filter_scanOrder, List.mem_filter, Bool.not_eq_true']

/-- Settles O39: `PLACE` is the filtered scan, so it repeats no cell, and the scan misses function modules only. -/
theorem placementOrder : Obligations.PlacementOrder := by
  refine ⟨filter_scanOrder, rfl, nodup_place, fun x hx y hy => ⟨fun h => (mem_place_iff.mp h).2, fun h => ?_⟩⟩
  rcases exists_rightColumn x hx with rfl | hcolumn
  · rw [functionPlane_column6 y hy] at h
    cases h
  · exact mem_place_iff.mpr ⟨mem_scanFrom.mpr ⟨hy, hcolumn⟩, h⟩

/-! ## Writing bits on cells (R179, R182, R234) -/

/-- The placement writes the bits on the cells of the scan that are not function modules. -/
theorem placeBits_eq_writeCells (func : Plane) (cells : List (Nat × Nat)) (bits : List Bool) (color : Plane) :
    placeBits func cells bits color = writeCells (cells.filter fun c => !func.get c.1 c.2) bits color := by
  induction cells generalizing bits color with
  | nil => rfl
  | cons c cells ih =>
    cases bits with
    | nil => cases hc : func.get c.1 c.2 <;> simp [placeBits, writeCells, hc]
    | cons b bits => cases hc : func.get c.1 c.2 <;> simp [placeBits, writeCells, hc, ih]

/-- A cell outside the list keeps its colour. -/
theorem get_writeCells_of_notMem {cells : List (Nat × Nat)} {x y : Nat} (h : (x, y) ∉ cells) (bits : List Bool)
    (color : Plane) : (writeCells cells bits color).get x y = color.get x y := by
  induction cells generalizing bits color with
  | nil => rfl
  | cons c cells ih =>
    obtain ⟨hc, hcells⟩ := not_or.mp (mt List.mem_cons.mpr h)
    cases bits with
    | nil => rfl
    | cons b bits => rw [writeCells, ih hcells, get_set_other _ _ _ _ _ _ hc]

/-- Cell `i` of a list without repetitions takes bit `i`. -/
theorem get_writeCells {cells : List (Nat × Nat)} {bits : List Bool} {i : Nat} {c : Nat × Nat} {b : Bool}
    (hnodup : cells.Nodup) (hc : cells[i]? = some c) (hb : bits[i]? = some b) (hx : c.1 < Config.side)
    (hy : c.2 < Config.side) (color : Plane) : (writeCells cells bits color).get c.1 c.2 = b := by
  induction cells generalizing bits i color with
  | nil => cases hc
  | cons c' cells ih =>
    obtain ⟨hfirst, hrest⟩ := List.nodup_cons.mp hnodup
    cases bits with
    | nil => cases hb
    | cons b' bits =>
      cases i with
      | zero =>
        cases hc
        cases hb
        rw [writeCells, get_writeCells_of_notMem hfirst, get_set_self _ _ _ _ hx hy]
      | succ i => exact ih hrest hc hb _

/-! ## The command (R170, R178, R183) -/

theorem getElem?_bits8 (v : Byte) : ∀ i < 8, (bits8 v)[i]? = some (v.getLsbD (7 - i)) := by
  intro i hi
  interval_cases i <;> rfl

/-- Bit `i` of a sequence of codewords is bit `7 - i mod 8` of codeword `i div 8`. -/
theorem getElem?_flatMap_bits8 {l : List Byte} {i : Nat} (hi : i < 8 * l.length) :
    (l.flatMap bits8)[i]? = some ((l.getD (i / 8) 0).getLsbD (7 - i % 8)) := by
  induction l generalizing i with
  | nil => simp at hi
  | cons v l ih =>
    rw [List.flatMap_cons]
    by_cases h8 : i < 8
    · rw [List.getElem?_append_left h8, getElem?_bits8 v i h8, Nat.div_eq_of_lt h8, Nat.mod_eq_of_lt h8]
      rfl
    · obtain ⟨k, rfl⟩ := Nat.exists_eq_add_of_le' (Nat.le_of_not_lt h8)
      rw [List.getElem?_append_right (by simp), length_bits8, Nat.add_sub_cancel, ih (by simp at hi; omega),
        Nat.add_div_right k (by decide), Nat.add_mod_right]
      rfl

theorem getElem?_placedSequence (s : State) {i : Nat} (hi : i < 208) :
    s.placedSequence[i]? = some (Spec.placedBit s.dcw s.ecc i) :=
  getElem?_flatMap_bits8 (by rwa [length_allCodewords])

theorem lt_side_of_mem_place : ∀ c ∈ Spec.place, c.1 < Config.side ∧ c.2 < Config.side := by decide +kernel

/-- The colours after MXBUILD: the bits of the sequence on `PLACE`, over the function patterns. -/
def placedColor (s : State) : Plane := writeCells Spec.place s.placedSequence Spec.patternPlane

theorem get_placedColor_place (s : State) {i : Nat} {c : Nat × Nat} (hc : Spec.place[i]? = some c) :
    (placedColor s).get c.1 c.2 = Spec.placedBit s.dcw s.ecc i := by
  obtain ⟨hi, -⟩ := List.getElem?_eq_some_iff.mp hc
  obtain ⟨hx, hy⟩ := lt_side_of_mem_place c (List.mem_of_getElem? hc)
  exact get_writeCells nodup_place hc (getElem?_placedSequence s hi) hx hy _

theorem get_placedColor_function (s : State) {x y : Nat} (h : Spec.functionPlane.get x y = true) :
    (placedColor s).get x y = Spec.patternPlane.get x y := by
  refine get_writeCells_of_notMem (fun hmem => ?_) _ _
  rw [(mem_place_iff.mp hmem).2] at h
  cases h

/-- MXBUILD's pseudocode in terms of `PLACE` and the two pictures. -/
theorem mxbuildBody_eq_placedColor (s : State) :
    mxbuildBody s = .ok { s with color := placedColor s, func := Spec.functionPlane, stage := .placed } := by
  rw [mxbuildBody_eq, functionPatterns_darkModule, placeBits_eq_writeCells, filter_scanOrder, placedColor]

/-- Settles O40: MXBUILD's pseudocode with the colours it leaves on each cell, and StageOrder in the other stages. -/
theorem mxbuildPlacesEveryBit : Obligations.MxbuildPlacesEveryBit := by
  refine fun s hf => ⟨fun hs => ⟨placedColor s, ?_, fun i c hc => get_placedColor_place s hc,
    fun x y h => get_placedColor_function s h⟩, fun hs => ?_⟩
  · exact exec_of_commandBody_ok hf .mxbuild (by simp [need, hs]) (mxbuildBody_eq_placedColor s)
  · exact exec_of_need_eq_false hf (by simp [need, hs])

end Sys2Proof.Machine

/-! SUPPORT and proofs for the statements of the family 44_mask.md: the predicates and the masked grid, the penalty of a
line by its runs, the two rules as sums over the grid, and the selection. -/

namespace Sys2Proof.Machine

/-! ## The masked grid (R201 to R203) -/

section
variable (k : Fin 8) (color : Plane) {func : Plane} {x y : Nat}

/-- The mask flips the cells that are no function module and on which the predicate is true (R202). -/
theorem get_maskApply (hx : x < Config.side) (hy : y < Config.side) :
    (maskApply k color func).get x y = (color.get x y ^^ (!func.get x y && maskPred k x y)) := by
  rw [maskApply, get_tabulate, decide_eq_true hx, decide_eq_true hy]
  cases !func.get x y && maskPred k x y <;> simp

/-- No mask changes a function module (R203). -/
theorem get_maskApply_function (h : func.get x y = true) : (maskApply k color func).get x y = color.get x y := by
  obtain ⟨hx, hy⟩ := lt_of_get h
  simp [get_maskApply k color hx hy, h]

/-- The second mask flips back what the first has flipped. -/
theorem maskApply_maskApply (func : Plane) : maskApply k (maskApply k color func) func = color := by
  refine plane_ext fun x hx y hy => ?_
  rw [get_maskApply _ _ hx hy, get_maskApply _ _ hx hy, Bool.xor_assoc, Bool.xor_self, Bool.xor_false]

end

/-- Settles O43: cell by cell; a function module lies on the grid, so the cell formula reaches it. -/
theorem maskIsAnInvolution : Obligations.MaskIsAnInvolution :=
  fun k color func => ⟨maskApply_maskApply k color func, fun _ hx _ hy => get_maskApply k color hx hy,
    fun _ _ h => get_maskApply_function k color h⟩

/-- Settles O42: the printed rows and the counts are evaluated; the table's entries are the formulas. -/
theorem predicateCounts : Obligations.PredicateCounts := by
  refine ⟨by decide +kernel, by decide +kernel, by decide +kernel, fun x y => ?_⟩
  and_intros <;> exact decide_eq_true_iff

/-! ## The penalty of a line (R204) -/

/-- The line whose runs have these colours and lengths, from left to right. -/
def lineOfRuns (runs : List (Bool × Nat)) : List Bool := runs.flatMap fun r => List.replicate r.2 r.1

theorem lineOfRuns_cons_succ (c : Bool) (n : Nat) (runs : List (Bool × Nat)) :
    lineOfRuns ((c, n + 1) :: runs) = c :: (List.replicate n c ++ lineOfRuns runs) := rfl

/-- Cells of the run's own colour lengthen it. -/
theorem scanLine_replicate_append (c : Bool) (run p n : Nat) (rest : List Bool) :
    scanLine c run p (List.replicate n c ++ rest) = scanLine c (n + run) p rest := by
  induction n generalizing run with
  | zero => rw [Nat.zero_add, List.replicate_zero, List.nil_append]
  | succ n ih => rw [List.replicate_succ, List.cons_append, scanLine, if_pos rfl, ih, Nat.add_right_comm, Nat.add_assoc]

/-- A cell of another colour ends the run and begins the next one. -/
theorem scanLine_cons_of_ne {c d : Bool} (h : d ≠ c) (run p : Nat) (rest : List Bool) :
    scanLine c run p (d :: rest) = scanLine d 1 (p + runPenalty run) rest := if_neg h

/-- The scan adds the penalty of the run it is in and of every run that follows, no two neighbours having one colour. -/
theorem scanLine_lineOfRuns {c : Bool} {run : Nat} (p : Nat) {runs : List (Bool × Nat)} (hpos : ∀ r ∈ runs, 1 ≤ r.2)
    (hchain : ((c, run) :: runs).IsChain fun a b => a.1 ≠ b.1) :
    scanLine c run p (lineOfRuns runs) = p + (runPenalty run + (runs.map fun r => runPenalty r.2).sum) := by
  induction runs generalizing c run p with
  | nil => rfl
  | cons r runs ih =>
    obtain ⟨hr, hrest⟩ := List.forall_mem_cons.mp hpos
    obtain ⟨hne, hnext⟩ := List.isChain_cons_cons.mp hchain
    obtain ⟨d, _ | n⟩ := r
    · cases hr
    · rw [lineOfRuns_cons_succ, scanLine_cons_of_ne (Ne.symm hne), scanLine_replicate_append, ih _ hrest hnext,
        Nat.add_assoc, List.map_cons, List.sum_cons]

theorem linePenalty_lineOfRuns {runs : List (Bool × Nat)} (hpos : ∀ r ∈ runs, 1 ≤ r.2)
    (hchain : runs.IsChain fun a b => a.1 ≠ b.1) :
    linePenalty (lineOfRuns runs) = (runs.map fun r => runPenalty r.2).sum := by
  cases runs with
  | nil => rfl
  | cons r runs =>
    obtain ⟨hr, hrest⟩ := List.forall_mem_cons.mp hpos
    obtain ⟨c, _ | n⟩ := r
    · cases hr
    · rw [lineOfRuns_cons_succ, linePenalty, scanLine_replicate_append, scanLine_lineOfRuns 0 hrest hchain,
        Nat.zero_add, List.map_cons, List.sum_cons]

theorem runPenalty_eq_ite_lt (run : Nat) : runPenalty run = if run < 5 then 0 else run - 2 := by
  simp only [runPenalty, ← Nat.not_lt, ite_not]

/-- Settles O44, by induction on the runs; the bound is that of one run over the whole line. -/
theorem linePenaltyCountsMaximalRuns : Obligations.LinePenaltyCountsMaximalRuns := by
  refine ⟨fun runs hpos hchain => ?_, linePenalty_le⟩
  simp only [← runPenalty_eq_ite_lt]
  exact linePenalty_lineOfRuns hpos hchain

/-! ## The two rules over the grid (R205, R206) -/

theorem map_range_eq_ofFn {α : Type} (f : Nat → α) (n : Nat) :
    (List.range n).map f = List.ofFn fun i : Fin n => f i := by
  rw [List.ofFn_eq_map, ← List.map_coe_finRange_eq_range, List.map_map]
  rfl

theorem rowLine_eq_ofFn (c : Plane) (y : Nat) : c.rowLine y = List.ofFn fun x : Fin 21 => c.get x.val y :=
  map_range_eq_ofFn _ 21

theorem columnLine_eq_ofFn (c : Plane) (x : Nat) : c.columnLine x = List.ofFn fun y : Fin 21 => c.get x y.val :=
  map_range_eq_ofFn _ 21

theorem penA_eq_sum (c : Plane) :
    penA c = (∑ y ∈ Finset.range 21, linePenalty (c.rowLine y)) + ∑ x ∈ Finset.range 21, linePenalty (c.columnLine x) :=
  rfl

theorem windows_eq_map_swap : windows = ((List.range 20).product (List.range 20)).map Prod.swap := by
  rw [List.product, List.map_flatMap]
  rfl

theorem mem_windows {w : Nat × Nat} : w ∈ windows ↔ w.1 < 20 ∧ w.2 < 20 := by
  rw [windows_eq_map_swap, List.mem_map_swap, List.pair_mem_product, List.mem_range, List.mem_range, and_comm]

theorem nodup_windows : windows.Nodup := by
  rw [windows_eq_map_swap]
  exact (List.nodup_range.product List.nodup_range).map Prod.swap_injective

theorem sameColourBlock_iff (c : Plane) (x y : Nat) :
    sameColourBlock c x y = true ↔ c.get x y = c.get (x + 1) y ∧ c.get x y = c.get x (y + 1) ∧
      c.get x y = c.get (x + 1) (y + 1) := by
  simp only [sameColourBlock, Bool.and_eq_true, beq_iff_eq, and_assoc]

/-- The windows of one colour are those the scan of Rule B counts. -/
theorem sameColourWindows_eq (c : Plane) :
    Spec.sameColourWindows c = (windows.filter fun w => sameColourBlock c w.1 w.2).toFinset := by
  ext w
  simp [Spec.sameColourWindows, sameColourBlock_iff, mem_windows]

theorem penB_eq_card (c : Plane) : penB c = 3 * (Spec.sameColourWindows c).card := by
  rw [sameColourWindows_eq, List.toFinset_card_of_nodup (nodup_windows.filter _), ← List.countP_eq_length_filter, penB]

/-- Settles O45: the rules' lists are the sets of lines and of windows; the special grids are evaluated. -/
theorem penaltyBounds : Obligations.PenaltyBounds := by
  refine ⟨fun c => ⟨penA_le c, penB_le c, penalty_le c, Nat.dvd_mul_right _ _⟩, by decide +kernel, by decide +kernel,
    by decide +kernel, fun c => ?_, fun c => ⟨penB_eq_card c, rfl⟩, by decide +kernel, by decide +kernel,
    by decide +kernel⟩
  simp only [← rowLine_eq_ofFn, ← columnLine_eq_ofFn]
  exact penA_eq_sum c

/-! ## The selection (R200, R208) -/

theorem getElem_candidatePenalties (color func : Plane) (k : Fin 8) :
    (candidatePenalties color func)[k] = penalty (maskApply k color func) := by
  simp [candidatePenalties]

theorem isWinner_bestMask (color func : Plane) :
    Spec.IsWinner (bestMask (candidatePenalties color func)) color func := by
  intro k
  simpa only [getElem_candidatePenalties] using bestMask_least (candidatePenalties color func) k

/-- MASKSEL's pseudocode in terms of the eight candidates' penalties. -/
theorem maskselBody_eq (s : State) :
    maskselBody s = .ok { s with
      pen := Vector.ofFn fun k => BitVec.ofNat 16 (penalty (maskApply k s.color s.func))
      best := BitVec.ofNat 3 (bestMask (candidatePenalties s.color s.func)).val
      color := maskApply (bestMask (candidatePenalties s.color s.func)) s.color s.func
      stage := .masked } := by
  have pens : (candidatePenalties s.color s.func).map (fun p => BitVec.ofNat 16 p) =
      Vector.ofFn fun k => BitVec.ofNat 16 (penalty (maskApply k s.color s.func)) := Vector.map_ofFn ..
  rw [maskselBody, pens]

/-- Settles O46: MASKSEL's pseudocode in its one stage, whose winner is the least, and StageOrder in the others. -/
theorem maskselPicksTheLeastPenalty : Obligations.MaskselPicksTheLeastPenalty := by
  refine fun s hf => ⟨fun hs => ⟨_, ?_, isWinner_bestMask s.color s.func⟩, fun hs => ?_⟩
  · exact exec_of_commandBody_ok hf .masksel (by simp [need, hs]) (maskselBody_eq s)
  · exact exec_of_need_eq_false hf (by simp [need, hs])

end Sys2Proof.Machine

/-! SUPPORT and proofs for the statements of the family 45_format_info.md: the format cells and words, what FMTWR writes
on each cell, and the registers on which an encode depends. -/

namespace Sys2Proof.Machine

/-! ## The format words and cells (R231 to R233) -/

theorem nodup_formatCells : (Spec.primary ++ Spec.secondary).Nodup := by decide

theorem formatStrips_perm : formatStrips.Perm (Spec.primary ++ Spec.secondary) := by decide

/-- Settles O47: the derivation for each of the eight words, and the reserved strips as a permutation of the cells. -/
theorem formatWordsAndCells : Obligations.FormatWordsAndCells :=
  ⟨by decide, rfl, rfl, nodup_formatCells, fun _ => formatStrips_perm.mem_iff⟩

/-! ## The two copies of the literal (R234) -/

theorem getElem?_formatCharacters (literal : BitVec 15) {t : Nat} (ht : t < 15) :
    (formatCharacters literal)[t]? = some (literal.getLsbD (14 - t)) := by
  simp [formatCharacters, ht]

theorem toList_formatWords : formatWords.toList = Spec.formatLiterals := rfl

theorem formatLiteral_eq_getD (s : State) : s.formatLiteral = Spec.formatLiterals.getD s.best.toNat 0 := by
  have inTable : s.best.toNat < formatWords.toList.length := s.best.isLt
  rw [← toList_formatWords, List.getD_eq_getElem _ _ inTable, Vector.getElem_toList, State.formatLiteral]

theorem lt_side_of_mem_formatCells : ∀ c ∈ Spec.primary ++ Spec.secondary, c.1 < Config.side ∧ c.2 < Config.side := by
  decide

/-- The secondary copy, written last, holds the literal, and it leaves the primary copy as it was written. -/
theorem holdsFormat_fmtWrite (s : State) (color : Plane) :
    Spec.HoldsFormat s.best.toNat (fmtWrite s.formatLiteral color) := by
  intro t ht c hc
  obtain ⟨hprimary, hsecondary, hdisjoint⟩ := List.nodup_append'.mp nodup_formatCells
  have character := getElem?_formatCharacters s.formatLiteral ht
  rw [← formatLiteral_eq_getD, fmtWrite]
  rcases hc with hc | hc
  · have hmem := List.mem_of_getElem? hc
    obtain ⟨hx, hy⟩ := lt_side_of_mem_formatCells c (List.mem_append_left _ hmem)
    exact (get_writeCells_of_notMem (hdisjoint hmem) _ _).trans (get_writeCells hprimary hc character hx hy _)
  · obtain ⟨hx, hy⟩ := lt_side_of_mem_formatCells c (List.mem_append_right _ (List.mem_of_getElem? hc))
    exact get_writeCells hsecondary hc character hx hy _

theorem get_fmtWrite_of_notMem (literal : BitVec 15) (color : Plane) {x y : Nat}
    (h : (x, y) ∉ Spec.primary ++ Spec.secondary) : (fmtWrite literal color).get x y = color.get x y := by
  obtain ⟨hprimary, hsecondary⟩ := not_or.mp (mt List.mem_append.mpr h)
  rw [fmtWrite, get_writeCells_of_notMem (show (x, y) ∉ secondaryCells from hsecondary),
    get_writeCells_of_notMem (show (x, y) ∉ primaryCells from hprimary)]

theorem fmtwrBody_eq (s : State) :
    fmtwrBody s = .ok { s with color := fmtWrite s.formatLiteral s.color, stage := .done } := rfl

/-- Settles O48: FMTWR's pseudocode with the colours of the two copies, and StageOrder in the other stages. -/
theorem fmtwrWritesBothCopies : Obligations.FmtwrWritesBothCopies := by
  refine fun s hf => ⟨fun hs => ⟨fmtWrite s.formatLiteral s.color, ?_, holdsFormat_fmtWrite s s.color,
    fun x y h => get_fmtWrite_of_notMem s.formatLiteral s.color h⟩, fun hs => ?_⟩
  · have completes := exec_of_commandBody_ok hf .fmtwr (by simp [need, hs]) (fmtwrBody_eq s)
    exact completes
  · exact exec_of_need_eq_false hf (by simp [need, hs])

/-! ## The registers on which an encode depends (R235)

An encode reads the text at its start and from then on nothing but the tables, the per-encode registers and `STAGE`:
giving every other register its reset value commutes with each part after BSENC's. -/

/-- The tables, the per-encode registers and `STAGE` of `s`; every other register as reset leaves it. -/
def State.encodeOnly (s : State) : State :=
  { State.reset with
    tables := s.tables, dcw := s.dcw, ecc := s.ecc, rem := s.rem, pen := s.pen, best := s.best, color := s.color
    func := s.func, stage := s.stage }

theorem map_andThen {f : State → State} {next : State → Except Raise State}
    (h : ∀ s, next (f s) = (next s).map f) (r : Except Raise State) :
    (andThen r next).map f = andThen (r.map f) next := by
  cases r with
  | ok s => exact (h s).symm
  | error e => rfl

theorem eq_error_of_map_eq_error {f : State → State} {x : Except Raise State} {r : Raise} (h : x.map f = .error r) :
    x = .error r := by
  cases x with
  | ok s => cases h
  | error e => exact congrArg _ (Except.error.inj h)

theorem eq_ok_of_map_eq_ok {f : State → State} {x : Except Raise State} {t : State} (h : x.map f = .ok t) :
    ∃ s, x = .ok s ∧ f s = t := by
  cases x with
  | ok s => exact ⟨s, rfl, Except.ok.inj h⟩
  | error e => cases h

theorem rseccBody_encodeOnly (s : State) : rseccBody s.encodeOnly = (rseccBody s).map State.encodeOnly := rfl

theorem mxbuildBody_encodeOnly (s : State) : mxbuildBody s.encodeOnly = (mxbuildBody s).map State.encodeOnly := by
  rw [mxbuildBody_eq, mxbuildBody_eq]
  rfl

theorem maskselBody_encodeOnly (s : State) : maskselBody s.encodeOnly = (maskselBody s).map State.encodeOnly := rfl

theorem fmtwrBody_encodeOnly (s : State) : fmtwrBody s.encodeOnly = (fmtwrBody s).map State.encodeOnly := rfl

/-- What GENQR leaves in the per-encode registers follows from what BSENC's part leaves there. -/
theorem genqrBody_map_encodeOnly (s : State) :
    (genqrBody s).map State.encodeOnly =
      andThen (andThen (andThen (andThen ((bsencBody s).map State.encodeOnly) rseccBody) mxbuildBody) maskselBody)
        fmtwrBody := by
  rw [genqrBody, map_andThen fmtwrBody_encodeOnly, map_andThen maskselBody_encodeOnly,
    map_andThen mxbuildBody_encodeOnly, map_andThen rseccBody_encodeOnly]

/-- An error of GENQR's pseudocode is one of BSENC's, with code 1 or 2 (R241). -/
theorem genqrBody_error_aborts {s : State} {r : Raise} (h : genqrBody s = .error r) : r.error.aborts = true := by
  rcases bsencBody_cases s with ⟨-, e⟩ | ⟨-, i, -, e⟩ | ⟨-, -, e⟩
  · cases (genqrBody_error s _ e).symm.trans h
    rfl
  · cases (genqrBody_error s _ e).symm.trans h
    rfl
  · obtain ⟨t, ht⟩ := genqrBody_ok_of_bsencBody e
    cases ht.symm.trans h

section
variable {s s' : State} (hlen : s'.len = s.len) (htables : s'.tables = s.tables)
include htables

/-- `abort_encode()` leaves the same per-encode registers whatever they were (R267). -/
theorem raiseError_encodeOnly (w : Word) {r : Raise} (h : r.error.aborts = true) :
    (raiseError w r s').encodeOnly = (raiseError w r s).encodeOnly := by
  rw [raiseError_eq_aborted w h, raiseError_eq_aborted w h]
  simp only [Spec.aborted, State.encodeOnly, htables]

include hlen

theorem bsencBody_map_encodeOnly (hunits : s'.inputUnits = s.inputUnits) :
    (bsencBody s').map State.encodeOnly = (bsencBody s).map State.encodeOnly := by
  rcases bsencBody_cases s with ⟨hl, e⟩ | ⟨hl, i, hi, e⟩ | ⟨hl, hi, e⟩ <;> rw [e] <;> rw [← hlen] at hl
  · rw [bsencBody_tooLong hl, hlen]
  · rw [bsencBody_invalid hl (hunits ▸ hi)]
  · rw [bsencBody_accepted hl (hunits ▸ hi), hunits]
    simp only [Except.map, State.encodeOnly, clearEncodeState, htables]

/-- GENQR leaves the same per-encode registers, `STAGE` and `ERR` for one text, completed or not. -/
theorem exec_genqr_encodeOnly (hf : s.fatal = false) (hf' : s'.fatal = false)
    (hunits : s'.inputUnits = s.inputUnits) :
    ∃ t t', exec .genqr s = .next t ∧ exec .genqr s' = .next t' ∧ t'.encodeOnly = t.encodeOnly ∧ t'.err = t.err := by
  have same : (genqrBody s').map State.encodeOnly = (genqrBody s).map State.encodeOnly := by
    rw [genqrBody_map_encodeOnly, genqrBody_map_encodeOnly, bsencBody_map_encodeOnly hlen htables hunits]
  rw [exec_eq_runCommand, exec_eq_runCommand]
  cases h : genqrBody s with
  | error r =>
    rw [h] at same
    have h' := eq_error_of_map_eq_error same
    refine ⟨_, _, runCommand_error .genqr _ s r hf rfl h, runCommand_error .genqr _ s' r hf' rfl h',
      raiseError_encodeOnly htables _ (genqrBody_error_aborts h), ?_⟩
    rw [raiseError_err, raiseError_err]
  | ok t =>
    rw [h] at same
    obtain ⟨t', h', ht⟩ := eq_ok_of_map_eq_ok same
    exact ⟨_, _, runCommand_ok .genqr _ s t hf rfl h, runCommand_ok .genqr _ s' t' hf' rfl h', ht, rfl⟩

end

/-- Settles O51: the two texts are equal, so the encodes agree part by part. -/
theorem genqrDependsOnTheTextOnly : Obligations.GenqrDependsOnTheTextOnly := by
  intro s s' hf hf' hlen htables hinp
  have hunits : s'.inputUnits = s.inputUnits := by
    rw [← inputUnits_withInp hinp, State.inputUnits, State.inputUnits, hlen]
    rfl
  obtain ⟨t, t', ht, ht', same, herr⟩ := exec_genqr_encodeOnly hlen htables hf hf' hunits
  exact ⟨t, t', ht, ht', (congrArg State.dcw same :), (congrArg State.ecc same :), (congrArg State.rem same :),
    (congrArg State.pen same :), (congrArg State.best same :), (congrArg State.color same :),
    (congrArg State.func same :), (congrArg State.stage same :), herr⟩

end Sys2Proof.Machine

/-! SUPPORT and proofs for the statements of the family 46_control.md: the end of a command and the stage it leaves, the
registers of a whole encode, and running the lines of a script. -/

namespace Sys2Proof.Machine

/-! ## NOP (R240) -/

/-- Settles O49: the pseudocode of NOP changes nothing, so it only completes; `STATUS` is read by its fields. -/
theorem nopOnlyClearsErr : Obligations.NopOnlyClearsErr := by
  refine ⟨by decide, fun s => ⟨fun hf => ?_, fun hf => ?_, fun hf hs => ?_⟩⟩
  · exact exec_of_commandBody_ok hf .nop rfl rfl
  · rw [exec_eq_runCommand, runCommand_fatal _ _ _ hf]
  · simp [statusWord_eq, Spec.status, hf, hs]

/-! ## How a command ends (R243, R244) -/

/-- A command that completes keeps `ERRCMD`, `ERRINFO` (R244) and `FATAL`. -/
theorem commandBody_keepsErrorRegisters {i : Instr} {s t : State} (h : commandBody i s = .ok t) :
    t.errCmd = s.errCmd ∧ t.errInfo = s.errInfo ∧ t.fatal = s.fatal := by
  rcases commandBody_writes h with ⟨-, r, rfl⟩ | ⟨n, -, g, d, rfl⟩ | outside
  · exact ⟨rfl, rfl, rfl⟩
  · exact ⟨rfl, rfl, rfl⟩
  · exact ⟨(congrArg State.errCmd outside :), (congrArg State.errInfo outside :), (congrArg State.fatal outside :)⟩

/-- Settles O18: with `FATAL` = 0 a command out of its stages and one that raises enter an error, and any other
completes. -/
theorem commandEndsCleanOrByErrorEntry : Obligations.CommandEndsCleanOrByErrorEntry := by
  intro i s hf
  rcases exec_cases i s with ⟨hfatal, -⟩ | ⟨-, -, e⟩ | ⟨-, -, r, -, e⟩ | ⟨-, -, u, hu, e⟩
  · cases hf.symm.trans hfatal
  · exact ⟨_, e, .inr ⟨by simp, _, rfl⟩⟩
  · exact ⟨_, e, .inr ⟨by simp, _, rfl⟩⟩
  · obtain ⟨hcmd, hinfo, -⟩ := commandBody_keepsErrorRegisters hu
    exact ⟨_, e, .inl ⟨rfl, hcmd, hinfo⟩⟩

theorem need_eq_true_iff (i : Instr) (stage : Stage) : need i stage = true ↔ Spec.mayRun i stage := by
  cases i <;> simp [need, Spec.mayRun, or_assoc]

theorem commandBody_stage {i : Instr} {s t : State} (h : commandBody i s = .ok t) :
    t.stage = Spec.leaves i s.stage := by
  cases i with
  | gfadd | gfsub | gfmul | gfdiv | gfinv | gfpow =>
    obtain ⟨r, rfl⟩ := fieldCommand_ok (by simp [IsFieldCommand]) h
    rfl
  | rsgen n =>
    obtain ⟨-, rfl⟩ := rsgenBody_ok_inv h
    rfl
  | bsenc =>
    rw [bsencBody_ok h]
    rfl
  | mxbuild =>
    rw [mxbuildBody_ok h]
    rfl
  | genqr =>
    obtain ⟨-, -, -, -, -, -, m, -, ht⟩ := genqrBody_eq_ok_iff.mp h
    cases ht
    rfl
  | nop | rsecc | rschk | masksel | fmtwr =>
    cases h
    rfl

theorem error_of_writeResult_eq_error {v : Except Raise Byte} {s : State} {r : Raise}
    (h : writeResult v s = .error r) : v = .error r := by
  rcases writeResult_cases v s with ⟨b, -, e⟩ | ⟨r', hv, e⟩
  · cases e.symm.trans h
  · cases e.symm.trans h
    exact hv

theorem gfDiv_error {t : GfTables} {a b : Byte} {r : Raise} (h : gfDiv t a b = .error r) :
    r = ⟨.divideByZero, 0⟩ := by
  by_cases hb : b = 0#8
  · rw [hb, gfDiv_zero_right] at h
    exact (Except.error.inj h).symm
  · by_cases ha : a = 0#8
    · rw [ha, gfDiv_zero_left _ hb] at h
      cases h
    · rw [gfDiv_of_ne_zero _ ha hb] at h
      cases h

theorem gfInv_error {t : GfTables} {a : Byte} {r : Raise} (h : gfInv t a = .error r) : r = ⟨.divideByZero, 0⟩ := by
  by_cases ha : a = 0#8
  · rw [ha, gfInv_zero] at h
    exact (Except.error.inj h).symm
  · rw [gfInv_of_ne_zero _ ha] at h
    cases h

/-- The errors that the pseudocode of a command of the opcode map raises have codes 1 to 4. -/
theorem commandBody_error_aborts {i : Instr} {s : State} {r : Raise} (hwf : i.wellFormed = true)
    (h : commandBody i s = .error r) : r.error.aborts = true := by
  cases i with
  | gfdiv a b =>
    rw [gfDiv_error (error_of_writeResult_eq_error h)]
    rfl
  | gfinv a =>
    rw [gfInv_error (error_of_writeResult_eq_error h)]
    rfl
  | rsgen n =>
    have legal : n.toNat ≤ 7 := of_decide_eq_true hwf
    cases (rsgenBody_ok n s legal).symm.trans h
  | bsenc => exact genqrBody_error_aborts (genqrBody_error s r h)
  | genqr => exact genqrBody_error_aborts h
  | mxbuild => cases (mxbuildBody_eq s).symm.trans h
  | nop | gfadd | gfsub | gfmul | gfpow | rsecc | rschk | masksel | fmtwr => cases h

/-- Settles O53: the three ways a command can end with `FATAL` = 0, each against one column of the table. -/
theorem stageTable : Obligations.StageTable := by
  intro i s t hwf hf h
  by_cases hn : need i s.stage = true
  · have may := (need_eq_true_iff i s.stage).mp hn
    rw [exec_eq_runCommand] at h
    cases hb : commandBody i s with
    | ok u =>
      rw [runCommand_ok i _ s u hf hn hb] at h
      cases h
      have stage := commandBody_stage hb
      exact ⟨absurd may, fun _ _ => stage, fun _ failed => absurd rfl failed⟩
    | error r =>
      rw [runCommand_error i _ s r hf hn hb] at h
      cases h
      refine ⟨absurd may, fun _ clean => ?_, fun _ _ => ?_⟩
      · rw [raiseError_err] at clean
        cases clean
      · rw [raiseError_stage, if_pos (commandBody_error_aborts hwf hb)]
  · have mayNot := mt (need_eq_true_iff i s.stage).mpr hn
    rw [exec_of_need_eq_false hf (Bool.eq_false_of_not_eq_true hn)] at h
    cases h
    exact ⟨fun _ => rfl, fun may => absurd may mayNot, fun may => absurd may mayNot⟩

/-! ## The registers of a whole encode (R235, R241) -/

/-- The state after the parts of BSENC and RSECC on a valid input. -/
def encodedText (s : State) : State :=
  { clearEncodeState s with
    dcw := registers Config.nData (codewords (bsEncode (Spec.text s)))
    ecc := registers Config.nEcc
      (rsEcc s.tables (registers Config.nData (codewords (bsEncode (Spec.text s)))).toList)
    stage := .ecc }

/-- The state after the part of MXBUILD. -/
def placedText (s : State) : State :=
  { encodedText s with color := placedColor (encodedText s), func := Spec.functionPlane, stage := .placed }

/-- The mask that MASKSEL's part picks. -/
def winningMask (s : State) : Fin 8 := bestMask (candidatePenalties (placedText s).color (placedText s).func)

/-- The state after the part of MASKSEL. -/
def maskedText (s : State) : State :=
  { placedText s with
    pen := Vector.ofFn fun k => BitVec.ofNat 16 (penalty (maskApply k (placedText s).color (placedText s).func))
    best := BitVec.ofNat 3 (winningMask s).val
    color := maskApply (winningMask s) (placedText s).color (placedText s).func
    stage := .masked }

/-- The grid that FMTWR's part leaves. -/
def finishedGrid (s : State) : Plane := fmtWrite (maskedText s).formatLiteral (maskedText s).color

theorem placedText_color (s : State) : (placedText s).color = placedColor (encodedText s) := by rw [placedText]

theorem genqrBody_valid {s : State} (h : Spec.ValidInput s) :
    genqrBody s = .ok { maskedText s with color := finishedGrid s, stage := .done } := by
  have ecc : rseccBody { clearEncodeState s with
      dcw := registers Config.nData (codewords (bsEncode (Spec.text s))), stage := .data } = .ok (encodedText s) := rfl
  have placed : mxbuildBody (encodedText s) = .ok (placedText s) := mxbuildBody_eq_placedColor (encodedText s)
  have masked : maskselBody (placedText s) = .ok (maskedText s) := maskselBody_eq (placedText s)
  rw [genqrBody, bsencBody_valid h, andThen_ok, ecc, andThen_ok, placed, andThen_ok, masked, andThen_ok, fmtwrBody_eq,
    finishedGrid]

theorem functionPlane_of_mem_formatCells :
    ∀ c ∈ Spec.primary ++ Spec.secondary, Spec.functionPlane.get c.1 c.2 = true := by
  decide +kernel

theorem maskedText_best (s : State) : (maskedText s).best.toNat = (winningMask s).val :=
  Nat.mod_eq_of_lt (winningMask s).isLt

/-- A data module is no format cell: it keeps its masked bit. -/
theorem get_finishedGrid_place (s : State) {i : Nat} {c : Nat × Nat} (hc : Spec.place[i]? = some c) :
    (finishedGrid s).get c.1 c.2 =
      (Spec.placedBit (encodedText s).dcw (encodedText s).ecc i ^^ maskPred (winningMask s) c.1 c.2) := by
  have hmem := List.mem_of_getElem? hc
  obtain ⟨hx, hy⟩ := lt_side_of_mem_place c hmem
  have data : Spec.functionPlane.get c.1 c.2 = false := (mem_place_iff.mp hmem).2
  have notFormat : c ∉ Spec.primary ++ Spec.secondary := fun hf => by
    cases data.symm.trans (functionPlane_of_mem_formatCells c hf)
  calc (finishedGrid s).get c.1 c.2
      = (maskApply (winningMask s) (placedText s).color Spec.functionPlane).get c.1 c.2 :=
        get_fmtWrite_of_notMem _ _ notFormat
    _ = ((placedText s).color.get c.1 c.2 ^^ maskPred (winningMask s) c.1 c.2) := by
        rw [get_maskApply _ _ hx hy, data, Bool.not_false, Bool.true_and]
    _ = _ := by
        rw [placedText_color, get_placedColor_place _ hc]

/-- A function module that is no format cell keeps its pattern. -/
theorem get_finishedGrid_function (s : State) {x y : Nat} (h : Spec.functionPlane.get x y = true)
    (notFormat : (x, y) ∉ Spec.primary ++ Spec.secondary) :
    (finishedGrid s).get x y = Spec.patternPlane.get x y := by
  calc (finishedGrid s).get x y
      = (maskApply (winningMask s) (placedText s).color Spec.functionPlane).get x y :=
        get_fmtWrite_of_notMem _ _ notFormat
    _ = (placedText s).color.get x y := get_maskApply_function _ _ h
    _ = Spec.patternPlane.get x y := by rw [placedText_color, get_placedColor_function _ h]

/-- Every register that GENQR leaves on a valid input. -/
theorem completed_finishedText (s : State) :
    completed { maskedText s with color := finishedGrid s, stage := .done } = { s with
      dcw := registers 19 (codewords (bsEncode (Spec.text s)))
      ecc := registers 7 (rsEcc s.tables (encodedText s).dcw.toList)
      rem := Vector.replicate _ 0
      pen := Vector.ofFn fun k => BitVec.ofNat 16 (penalty (maskApply k (placedText s).color Spec.functionPlane))
      best := BitVec.ofNat 3 (winningMask s).val
      color := finishedGrid s
      func := Spec.functionPlane
      stage := .done
      err := none } := by
  simp only [completed, maskedText, placedText, encodedText, clearEncodeState]

/-- Settles O50: GENQR's pseudocode on a valid input, its grid read cell by cell. -/
theorem genqrFinalGrid : Obligations.GenqrFinalGrid := by
  intro s hf h
  have run := exec_of_commandBody_ok hf .genqr rfl (genqrBody_valid h)
  rw [completed_finishedText] at run
  refine ⟨_, winningMask s, (placedText s).color, run, fun i c hc => ?_, fun x y hxy => ?_, isWinner_bestMask _ _,
    rfl, fun i c hc => get_finishedGrid_place s hc, ?_, fun x y hxy => get_finishedGrid_function s hxy⟩
  · rw [placedText_color]
    exact get_placedColor_place _ hc
  · rw [placedText_color, get_placedColor_function _ hxy]
  · rw [← maskedText_best]
    exact holdsFormat_fmtWrite (maskedText s) _

/-! ## GENQR and the script of the five stage commands (R242, R72) -/

/-- A command line runs the command (R71). -/
theorem hostAct_scriptCommand {i : Instr} {s : State} (hwf : i.wellFormed = true) (hf : s.fatal = false) :
    hostAct (scriptCommand i) s = exec i s := by
  calc hostAct (scriptCommand i) s
      = step (Spec.next (scriptCommand i) s) := (step_next _ s).symm
    _ = executeWord (encode i) s := step_write_cmd hf (encode i)
    _ = exec i s := by rw [executeWord, decodeOfEncode i hwf]

/-- In stage 0 StageOrder records 0 (R260). -/
theorem exec_of_need_idle_eq_false {i : Instr} {s : State} (hf : s.fatal = false) (hs : s.stage = .idle)
    (hn : need i .idle = false) : exec i s = .next (Spec.recorded s .stageOrder (encode i) 0) := by
  rw [exec_of_need_eq_false hf (hs ▸ hn)]
  simp only [Spec.outOfOrder, hs]

/-- The first line of a script runs its command, with the lines after it pending. -/
theorem run_scriptCommand {i : Instr} {s t u : State} {rest : List HostAction} {k : Nat} (hwf : i.wellFormed = true)
    (hf : s.fatal = false) (hp : s.pending = scriptCommand i :: rest)
    (h : exec i { s with pending := rest } = .next t) (hrest : Host.Core.run Sys2Proof.core k t = .next u) :
    Host.Core.run Sys2Proof.core (k + 1) s = .next u :=
  (run_pending_cons hp ((hostAct_scriptCommand (s := { s with pending := rest }) hwf hf).trans h) k).trans hrest

/-- The state with `err` in `ERR` and `pending` as the host's coming actions. -/
def State.withPort (err : Option ErrorKind) (pending : List HostAction) (s : State) : State := { s with err, pending }

/-- A stage command reads neither `ERR` nor the host's coming actions. -/
theorem stageBody_withPort {i : Instr} {s t : State} (hi : i ∈ [.bsenc, .rsecc, .mxbuild, .masksel, .fmtwr])
    (h : commandBody i s = .ok t) (err : Option ErrorKind) (pending : List HostAction) :
    commandBody i (s.withPort err pending) = .ok (t.withPort err pending) := by
  simp only [List.mem_cons, List.not_mem_nil, or_false] at hi
  rcases hi with rfl | rfl | rfl | rfl | rfl
  case inl =>
    rcases bsencBody_cases s with ⟨-, e⟩ | ⟨-, j, -, e⟩ | ⟨hlen, hvalid, e⟩ <;> cases e.symm.trans h
    exact bsencBody_accepted (s := s.withPort err pending) hlen hvalid
  case inr.inr.inl =>
    cases (mxbuildBody_eq s).symm.trans h
    exact mxbuildBody_eq (s.withPort err pending)
  all_goals
    cases h
    rfl

/-- The first line of a script, a stage command that completes. -/
theorem run_stageCommand {i : Instr} {s t u : State} {err : Option ErrorKind} {rest : List HostAction} {k : Nat}
    (hi : i ∈ [.bsenc, .rsecc, .mxbuild, .masksel, .fmtwr]) (hwf : i.wellFormed = true) (hf : s.fatal = false)
    (hn : need i s.stage = true) (hb : commandBody i s = .ok t)
    (hrest : t.fatal = false → t.stage = Spec.leaves i s.stage →
      Host.Core.run Sys2Proof.core k (t.withPort none rest) = .next u) :
    Host.Core.run Sys2Proof.core (k + 1) (s.withPort err (scriptCommand i :: rest)) = .next u := by
  obtain ⟨-, -, fatal⟩ := commandBody_keepsErrorRegisters hb
  exact run_scriptCommand (s := s.withPort err (scriptCommand i :: rest)) hwf hf rfl
    (exec_of_commandBody_ok (s := s.withPort err rest) hf i hn (stageBody_withPort hi hb err rest))
    (hrest (fatal.trans hf) (commandBody_stage hb))

/-- The script of the five stage commands completes when GENQR does, with the same registers. -/
theorem run_encodeScript {s t : State} (hf : s.fatal = false) (h : genqrBody s = .ok t) :
    Host.Core.run Sys2Proof.core 5 ({ s with pending := encodeScript ++ s.pending } : State) =
      .next (t.withPort none s.pending) := by
  obtain ⟨d, hd, e, he, p, hp, m, hm, ht⟩ := genqrBody_eq_ok_iff.mp h
  refine run_stageCommand (i := .bsenc) (by simp) rfl hf rfl hd fun fd sd => ?_
  refine run_stageCommand (i := .rsecc) (by simp) rfl fd (by rw [sd]; rfl) he fun fe se => ?_
  refine run_stageCommand (i := .mxbuild) (by simp) rfl fe (by rw [se]; rfl) hp fun fp sp => ?_
  refine run_stageCommand (i := .masksel) (by simp) rfl fp (by rw [sp]; rfl) hm fun fm sm => ?_
  exact run_stageCommand (i := .fmtwr) (by simp) rfl fm (by rw [sm]; rfl) ht fun _ _ => rfl

theorem exec_of_invalidInput {i : Instr} {s : State} (hi : i = .bsenc ∨ i = .genqr) (hf : s.fatal = false)
    (h : ¬ Spec.ValidInput s) : ∃ e info, (e = .inputTooLong ∨ e = .invalidCharacter) ∧
      exec i s = .next (Spec.aborted s e (encode i) info false) := by
  rcases bsencBody_cases s with ⟨-, e⟩ | ⟨-, j, -, e⟩ | ⟨hlen, hvalid, -⟩
  · exact ⟨_, _, .inl rfl, exec_of_bsencBody_error hi hf e rfl rfl⟩
  · exact ⟨_, _, .inr rfl, exec_of_bsencBody_error hi hf e rfl rfl⟩
  · exact absurd ⟨hlen, firstInvalid_inputUnits_eq_none_iff.mp hvalid⟩ h

/-- The first line of a script, a command that may not run in stage 0. -/
theorem run_idleCommand {i : Instr} {s u : State} {rest : List HostAction} {k : Nat} (hwf : i.wellFormed = true)
    (hf : s.fatal = false) (hs : s.stage = .idle) (hn : need i .idle = false) (hp : s.pending = scriptCommand i :: rest)
    (hrest : Host.Core.run Sys2Proof.core k (Spec.recorded { s with pending := rest } .stageOrder (encode i) 0) =
      .next u) :
    Host.Core.run Sys2Proof.core (k + 1) s = .next u :=
  run_scriptCommand hwf hf hp (exec_of_need_idle_eq_false (s := { s with pending := rest }) hf hs hn) hrest

/-- The lines of ENCODE after BSENC (R72). -/
def laterCommands : List HostAction := [Instr.rsecc, .mxbuild, .masksel, .fmtwr].map scriptCommand

/-- In stage 0 each of the four later stage commands records StageOrder. -/
theorem run_laterCommands_idle {s : State} {rest : List HostAction} (hf : s.fatal = false) (hs : s.stage = .idle)
    (hp : s.pending = laterCommands ++ rest) :
    ∃ u, Host.Core.run Sys2Proof.core 4 s = .next u ∧
      u.stage = .idle ∧ u.err = some .stageOrder ∧ u.errInfo = 0 ∧ u.errCmd = 0x16000000 :=
  ⟨_, run_idleCommand rfl hf hs rfl hp (run_idleCommand rfl hf hs rfl rfl (run_idleCommand rfl hf hs rfl rfl
    (run_idleCommand rfl hf hs rfl rfl rfl))), hs, rfl, rfl, rfl⟩

/-- On an invalid input BSENC leaves stage 0, and the script ends with the StageOrder of its last command. -/
theorem run_encodeScript_invalid {s : State} (hf : s.fatal = false) (h : ¬ Spec.ValidInput s) :
    ∃ u, Host.Core.run Sys2Proof.core 5 ({ s with pending := encodeScript ++ s.pending } : State) = .next u ∧
      u.stage = .idle ∧ u.err = some .stageOrder ∧ u.errInfo = 0 ∧ u.errCmd = 0x16000000 := by
  obtain ⟨e, info, -, hbsenc⟩ := exec_of_invalidInput (i := .bsenc)
    (s := s.withPort s.err (laterCommands ++ s.pending)) (.inl rfl) hf h
  obtain ⟨u, hrest, last⟩ := run_laterCommands_idle (rest := s.pending)
    (s := Spec.aborted (s.withPort s.err (laterCommands ++ s.pending)) e (encode .bsenc) info false) rfl rfl rfl
  exact ⟨u, run_scriptCommand rfl hf rfl hbsenc hrest, last⟩

theorem output_of_idle {s : State} (hs : s.stage = .idle) : s.output = none := by
  simp [State.output, hs]

/-- Settles O52: GENQR and the script run the same pseudocode on a valid input, and both fail on an invalid one. -/
theorem genqrEqualsTheStagedScript : Obligations.GenqrEqualsTheStagedScript := by
  refine fun s hf => ⟨fun h => ?_, fun h => ?_⟩
  · obtain ⟨t, ht⟩ := genqrBody_ok_of_bsencBody (bsencBody_valid h)
    have pending : t.pending = s.pending := (congrArg State.pending (genqrBody_outside ht) :)
    have same : completed t = t.withPort none s.pending := by
      rw [← pending]
      rfl
    refine ⟨t.withPort none s.pending, ?_, run_encodeScript hf ht⟩
    rw [← same]
    exact run_scriptCommand rfl hf rfl (exec_of_commandBody_ok hf .genqr rfl ht) rfl
  · obtain ⟨e, info, he, hgenqr⟩ := exec_of_invalidInput (.inr rfl) hf h
    obtain ⟨u, hscript, hstage, herr, hinfo, hcmd⟩ := run_encodeScript_invalid hf h
    exact ⟨_, u, run_scriptCommand rfl hf rfl hgenqr rfl, hscript, he.imp (congrArg some) (congrArg some), rfl, herr,
      hinfo, hcmd, rfl, hstage, output_of_idle rfl, output_of_idle hstage⟩

end Sys2Proof.Machine

/-! SUPPORT and proofs for the statements of the family 60_exceptions.md: error entry, the commands that enter the fatal
state, and what the host can see and do in it. -/

namespace Sys2Proof.Machine

/-! ## Error entry (R266, R267) -/

/-- An error with code 5 or 6 leaves the state R265 describes. -/
theorem raiseError_eq_recorded (w : Word) {r : Raise} (s : State) (h : r.error.aborts = false) :
    raiseError w r s = Spec.recorded s r.error w r.info :=
  raiseError_protocol w r s h

/-- Settles O17: the codes 1 to 4 abort, of which 3 and 4 are fatal, and the codes 5 and 6 only record themselves. -/
theorem errorEntry : Obligations.ErrorEntry := by
  intro w e info s
  cases e with
  | inputTooLong | invalidCharacter | divideByZero | placementInvariantViolation => exact raiseError_eq_aborted w rfl
  | illegalCommand | stageOrder => exact raiseError_eq_recorded w s rfl

/-! ## Entering the fatal state (R263, R264) -/

theorem eq_zero_of_gfDiv_error {t : GfTables} {a b : Byte} {r : Raise} (h : gfDiv t a b = .error r) : b = 0#8 := by
  by_contra hb
  by_cases ha : a = 0#8
  · rw [ha, gfDiv_zero_left _ hb] at h
    cases h
  · rw [gfDiv_of_ne_zero _ ha hb] at h
    cases h

theorem eq_zero_of_gfInv_error {t : GfTables} {a : Byte} {r : Raise} (h : gfInv t a = .error r) : a = 0#8 := by
  by_contra ha
  rw [gfInv_of_ne_zero _ ha] at h
  cases h

/-- The errors of GENQR's pseudocode are those of the input checks (R241). -/
theorem genqrBody_error_not_fatal {s : State} {r : Raise} (h : genqrBody s = .error r) : r.error.isFatal = false := by
  rcases bsencBody_cases s with ⟨-, e⟩ | ⟨-, i, -, e⟩ | ⟨-, -, e⟩
  · cases (genqrBody_error s _ e).symm.trans h
    rfl
  · cases (genqrBody_error s _ e).symm.trans h
    rfl
  · obtain ⟨t, ht⟩ := genqrBody_ok_of_bsencBody e
    cases ht.symm.trans h

theorem rsgenBody_error_not_fatal {n : Byte} {s : State} {r : Raise} (h : rsgenBody n s = .error r) :
    r.error.isFatal = false := by
  by_cases hn : n.toNat ≤ 7
  · cases (rsgenBody_ok n s hn).symm.trans h
  · cases (rsgenBody_error n s hn).symm.trans h
    rfl

/-- The pseudocode that raises a fatal error is that of a division by zero. -/
theorem zeroDivisor_of_fatal_error {i : Instr} {s : State} {r : Raise} (h : commandBody i s = .error r)
    (hfatal : r.error.isFatal = true) : (∃ a, i = .gfdiv a 0) ∨ i = .gfinv 0 := by
  cases i with
  | gfdiv a b => exact .inl ⟨a, congrArg (Instr.gfdiv a) (eq_zero_of_gfDiv_error (error_of_writeResult_eq_error h))⟩
  | gfinv a => exact .inr (congrArg Instr.gfinv (eq_zero_of_gfInv_error (error_of_writeResult_eq_error h)))
  | rsgen n => cases (rsgenBody_error_not_fatal h).symm.trans hfatal
  | bsenc => cases (genqrBody_error_not_fatal (genqrBody_error s r h)).symm.trans hfatal
  | genqr => cases (genqrBody_error_not_fatal h).symm.trans hfatal
  | mxbuild => cases (mxbuildBody_eq s).symm.trans h
  | nop | gfadd | gfsub | gfmul | gfpow | rsecc | rschk | masksel | fmtwr => cases h

/-- Settles O20: StageOrder is not fatal, a command that completes keeps `FATAL`, and the errors of the pseudocode are
those of the two commands or not fatal. -/
theorem fatalEnteredOnlyByZeroDivisor : Obligations.FatalEnteredOnlyByZeroDivisor := by
  intro i s t hf h hfatal
  rcases exec_cases i s with ⟨hs, -⟩ | ⟨-, -, e⟩ | ⟨-, -, r, hr, e⟩ | ⟨-, -, u, hu, e⟩
  · cases hf.symm.trans hs
  all_goals cases e.symm.trans h
  · rw [raiseError_fatal, hf] at hfatal
    cases hfatal
  · rw [raiseError_fatal, hf, Bool.or_false] at hfatal
    exact zeroDivisor_of_fatal_error hr hfatal
  · obtain ⟨-, -, keeps⟩ := commandBody_keepsErrorRegisters hu
    cases (keeps.trans hf).symm.trans hfatal

/-! ## The fatal state (R268) -/

/-- `STATUS` shows `FATAL`, `STAGE` = 0 and the fatal code. -/
theorem status_of_fatal {s : State} (h : s.Inv) (hf : s.fatal = true) :
    Spec.status s = 0x00000390 ∨ Spec.status s = 0x00000490 := by
  obtain ⟨hstage, herr | herr⟩ := h.fatal_state hf
  · exact .inl (by simp [Spec.status, hstage, herr, hf])
  · exact .inr (by simp [Spec.status, hstage, herr, hf])

/-- The per-encode registers read as 0 after `clear_encode_state()` (R33): the bounds exclude every other register's
address. -/
theorem window_clearEncodeState (s : State) (draw : Byte) {a : Nat}
    (ha : a = 0x004 ∨ (0x030 ≤ a ∧ a < 0x050) ∨ (0x058 ≤ a ∧ a < 0x100)) :
    Spec.window (clearEncodeState s) draw a = 0 := by
  simp (disch := omega) only [Spec.window, if_neg, clearEncodeState_best, clearEncodeState_dcw, clearEncodeState_ecc,
    clearEncodeState_rem, clearEncodeState_pen, clearEncodeState_color, clearEncodeState_func, Plane.clear,
    Vector.toList_replicate, BitVec.ofNat_eq_ofNat, getD_replicate_zero, BitVec.setWidth_zero, ite_self]

/-- In the fatal state a host action other than reset changes nothing, or is a read. -/
theorem hostAct_next_of_fatal {act : HostAction} {s t : State} (hf : s.fatal = true) (hreset : act ≠ .reset)
    (h : hostAct act s = .next t) : t = s ∨ ∃ a, t = hostRead a s := by
  cases act with
  | reset => exact absurd rfl hreset
  | read a size =>
    simp only [hostAct] at h
    split_ifs at h
    cases h
    exact .inr ⟨a, rfl⟩
  | write a size v =>
    simp only [hostAct] at h
    split_ifs at h
    cases (hostWrite_fatal hf a v).symm.trans h
    exact .inl rfl

/-- A run that ends in the fatal state is a fatal failure (R298). -/
theorem runEnd_of_fatal {s : State} (hf : s.fatal = true) :
    s.runEnd = if s.pending = [] then some .fatalFailure else none := by
  simp [State.runEnd, State.ended, hf]

/-- Settles O19: the invariant fixes what a read shows, and the actions that are not ignored are reads and reset. -/
theorem fatalStateIsLeftOnlyByReset : Obligations.FatalStateIsLeftOnlyByReset := by
  intro s h hf
  obtain ⟨hstage, -⟩ := h.fatal_state hf
  refine ⟨fun a ha v => ?writes, fun a ha => ?reads, h.tables_constant, fun act t hreset hstep => ?actions,
    ⟨assertReset s, rfl, rfl⟩, ?notSuccess, fun hp => ?ended⟩
  case writes => rw [step_next, hostAct_write ha, hostWrite_fatal hf]
  case reads =>
    refine ⟨_, _, hostReadReturnsTheMappedWord s a ha, ?_, ?_, ?_, fun cleared => ?_⟩
    · rintro rfl
      exact status_of_fatal h hf
    · rintro rfl
      rfl
    · rintro rfl
      rfl
    · rw [← h.idle_cleared hstage]
      exact window_clearEncodeState s _ cleared
  case actions =>
    rw [step_next] at hstep
    rcases hostAct_next_of_fatal hf hreset hstep with rfl | ⟨a, rfl⟩
    · exact ⟨hf, rfl, rfl, rfl⟩
    · exact ⟨hf, rfl, rfl, rfl⟩
  case notSuccess =>
    rw [runEnd_of_fatal hf]
    split_ifs <;> simp
  case ended => rw [runEnd_of_fatal hf, if_pos hp]

end Sys2Proof.Machine

/-! SUPPORT and proofs for the statements of the family 70_reset_and_hazards.md: reset, the host's list of actions, and
the end of a run. -/

namespace Sys2Proof.Machine

/-! ## Reset (R290, R291) -/

/-- Settles O16: the step performs the pending reset, which is `assertReset`. -/
theorem resetFromEveryState : Obligations.ResetFromEveryState :=
  fun s => step_next .reset s

/-! ## The actions still to be performed (R298) -/

theorem pending_executeWord {w : Word} {s t : State} (h : executeWord w s = .next t) : t.pending = s.pending := by
  rw [executeWord] at h
  split at h
  · obtain ⟨-, -, -, hpending, -, -⟩ := commandsLeaveInputsAndTables _ s t h
    exact hpending
  · cases h
    exact raiseError_pending ..

theorem pending_hostAct {act : HostAction} {s t : State} (h : hostAct act s = .next t) : t.pending = s.pending := by
  rcases hostAct_next h with rfl | ⟨a, rfl⟩ | ⟨a, v, hw⟩
  · exact assertReset_pending s
  · exact hostRead_pending a s
  · rcases hostWrite_next hw with rfl | ⟨-, he⟩ | ⟨inp, len, rfl⟩
    · rfl
    · exact pending_executeWord he
    · rfl

/-- A step takes the first pending action off the list and adds none. -/
theorem pending_step {s t : State} (h : step s = .next t) : t.pending = s.pending.tail := by
  cases hp : s.pending with
  | nil =>
    cases (step_of_pending_nil hp).symm.trans h
    exact hp
  | cons act rest =>
    rw [step_of_pending_cons hp] at h
    exact pending_hostAct h

/-! ## The end of a run (R298) -/

/-- Every way a run can stand: not ended, or ended in one of the four ways. -/
theorem runEnd_cases (s : State) :
    (s.pending ≠ [] ∧ s.runEnd = none) ∨
    (s.pending = [] ∧ s.fatal = true ∧ s.runEnd = some .fatalFailure) ∨
    (s.pending = [] ∧ s.fatal = false ∧ s.err ≠ none ∧ s.runEnd = some .reportedFailure) ∨
    (s.pending = [] ∧ s.fatal = false ∧ s.err = none ∧ s.stage = .done ∧ s.runEnd = some .success) ∨
    (s.pending = [] ∧ s.fatal = false ∧ s.err = none ∧ s.stage ≠ .done ∧ s.runEnd = some .noOutput) := by
  by_cases hp : s.pending = []
  · cases hf : s.fatal with
    | true => simp [hp, runEnd_of_fatal hf]
    | false =>
      by_cases he : s.err = none
      · by_cases hs : s.stage = .done <;> simp [State.runEnd, State.ended, hp, hf, he, hs]
      · simp [State.runEnd, State.ended, hp, hf, he]
  · simp [State.runEnd, State.ended, hp]

theorem runEnd_eq_none_iff {s : State} : s.runEnd = none ↔ s.pending ≠ [] := by
  rcases runEnd_cases s with ⟨hp, e⟩ | ⟨hp, -, e⟩ | ⟨hp, -, -, e⟩ | ⟨hp, -, -, -, e⟩ | ⟨hp, -, -, -, e⟩ <;> simp [hp, e]

theorem runEnd_eq_success_iff {s : State} :
    s.runEnd = some .success ↔ s.pending = [] ∧ s.fatal = false ∧ s.err = none ∧ s.stage = .done := by
  rcases runEnd_cases s with ⟨hp, e⟩ | ⟨-, hf, e⟩ | ⟨-, -, he, e⟩ | ⟨hp, hf, he, hs, e⟩ | ⟨-, -, -, hs, e⟩ <;> simp [*]

theorem runEnd_eq_reportedFailure_iff {s : State} :
    s.runEnd = some .reportedFailure ↔ s.pending = [] ∧ s.fatal = false ∧ s.err ≠ none := by
  rcases runEnd_cases s with ⟨hp, e⟩ | ⟨-, hf, e⟩ | ⟨hp, hf, he, e⟩ | ⟨-, -, he, -, e⟩ | ⟨-, -, he, -, e⟩ <;> simp [*]

theorem runEnd_eq_fatalFailure_iff {s : State} :
    s.runEnd = some .fatalFailure ↔ s.pending = [] ∧ s.fatal = true := by
  rcases runEnd_cases s with ⟨hp, e⟩ | ⟨hp, hf, e⟩ | ⟨-, hf, -, e⟩ | ⟨-, hf, -, -, e⟩ | ⟨-, hf, -, -, e⟩ <;> simp [*]

theorem output_of_done {s : State} (hs : s.stage = .done) : s.output = some s.color :=
  if_pos hs

/-- An error that aborts the encode leaves no output (R267, R298). -/
theorem output_of_aborting_error {s : State} {e : ErrorKind} (h : s.Inv) (he : s.err = some e)
    (ha : e.aborts = true) : s.output = none :=
  output_of_idle (h.aborted_idle e he ha)

/-- Settles O59: the ends of a run by `FATAL`, `ERR` and `STAGE`, no action is added to the list, and an error with code
1 or 2 aborts the encode. -/
theorem runEndClassification : Obligations.RunEndClassification := by
  intro s
  refine ⟨runEnd_eq_none_iff, fun _ => pending_step, runEnd_eq_success_iff, runEnd_eq_reportedFailure_iff,
    runEnd_eq_fatalFailure_iff, fun hend => ?output, fun hinv herr => ?noOutput⟩
  case output =>
    obtain ⟨-, -, -, hdone⟩ := runEnd_eq_success_iff.mp hend
    exact output_of_done hdone
  case noOutput =>
    rcases herr with herr | herr <;> exact output_of_aborting_error hinv herr rfl

end Sys2Proof.Machine
